-- ==== Sys2Proof/Word.lean ====
section
/-!
DEFINITION. The 20-bit word of both stores and of every register, and its two readings (spec/00_scope.md R4, R5).
-/

namespace Sys2Proof

/-- A word is 20 bits, bit 19 the most significant (R4). -/
abbrev Word := BitVec 20

/-- `sint(w)`, the word as a two's-complement number from -2^19 to 2^19 - 1 (R4, R5). -/
abbrev sint (w : Word) : Int := w.toInt

/-- `uint(w)`, the word as an unsigned number from 0 to 2^20 - 1 (R4). -/
abbrev uint (w : Word) : Nat := w.toNat

/-- `word(v) = v mod 2^20`, any integer turned back into a word (R4). -/
abbrev word (v : Int) : Word := BitVec.ofInt 20 v

end Sys2Proof
end

