-- ==== Sys2Proof/Config.lean ====
section
/-!
DEFINITION. What an implementation fixes and what the spec leaves open (spec/00_scope.md R3): the decided parameters with
the alternatives the spec names, the open functions of the PCR, and the free values (`draw`, R6). The OPEN parameters
`FAST_WORDS`, `MAIN_WORDS`, `PRIORITY` and `DEVICES` are the data `Params`, carried in State and changed by no step.
-/

namespace Sys2Proof

/-- The two stores, separate address spaces (R23, R24). -/
inductive StoreName
  | fast
  | main
deriving DecidableEq, Repr, Inhabited

/-- A store and a word address in it: a value of S (R14), a re-entry address (R21), an operand location (R6). -/
structure Place where
  store : StoreName
  addr : Nat
deriving DecidableEq, Repr, Inhabited

/-- A programme priority level, 0 to 6; the number is a label and says nothing of priority (R144). NLEV = 7. -/
abbrev Level := Fin 7

/-- A device number, 0 to 15: the device address highway is 4 bits (R25, R128). -/
abbrev Device := Fin 16

/-- `COND44`: the readings of function 44's damaged condition that the spec names (R103). -/
inductive Cond44
  | nonneg
  | nonzero
  | positive
deriving DecidableEq, Repr

/-- `JUMP5X`: whether 50 and 51 use N itself or the contents of location N (R107). -/
inductive Jump5X
  | direct
  | indirect
deriving DecidableEq, Repr

/-- `MUL65_ROUND`: how function 65 cuts the product to single length, "truncated, as here, or rounded on the lost half"
(R125). -/
inductive Mul65Round
  | truncate
  | roundHalf
deriving DecidableEq, Repr

/-- The Program Control Register. Its format is not in the source (R19, R139): `allowed` is what `pcr_allows` reads of it and
`content` stands for all else it holds. Since `Config.pcrWrite` is an open function of the whole register, this fixes no bit of
the PCR and loses no behaviour (log 8, DESIGN CHOICE). -/
structure Pcr where
  allowed : Vector Bool 7
  content : Word
deriving DecidableEq, Repr, Inhabited

/-- The OPEN parameters of R3, which the model takes as data: `FAST_WORDS`, `MAIN_WORDS`, `PRIORITY` as a rank of each level
(a higher rank outranks; among equal ranks the higher number does, so that every value is a total order, log 6), and the
devices a platform adds to 0, 1 and 2. -/
structure Params where
  fastWords : Nat
  mainWords : Nat
  rank : Vector Nat 7
  platform : Vector Bool 16
deriving DecidableEq, Repr

namespace Config

/-- The spec's decision on `COND44` is `a >= 0` (R103, 92_eei_decisions.md D10; log 11). -/
def cond44 : Cond44 := .nonneg

/-- The spec's decision on `JUMP5X` is `direct` (R107, D11; log 12). -/
def jump5x : Jump5X := .direct

/-- The spec's decision on `MUL65_ROUND` is `truncate` (R125, D15; log 13). -/
def mul65Round : Mul65Round := .truncate

/-- `pcr_read`: the word 70/2 and 73/2 read (R139). An open function: nothing is known of it. -/
opaque pcrRead : Pcr → Word

/-- `pcr_write`: the PCR after 77/2 (R139). An open function: nothing is known of it. -/
opaque pcrWrite : Pcr → Word → Pcr

/-- The n-th draw of OV after an overflow outside Group 3, `OV <- draw{OV, 1}` (R62, parameter `OV_SCOPE`; log 9): true sets
OV, false leaves it. A free value. -/
opaque ovDraw : Nat → Bool

/-- The n-th draw of an inexact division among the two quotients R126 allows (parameter `DIV_CONVENTION`; log 10): false takes
the one nearer to zero. A free value. -/
opaque divDraw : Nat → Bool

end Config

end Sys2Proof
end

