-- ==== Sys2Proof/Syntax.lean ====
section
/-!
DEFINITION. The instructions: one constructor per row of spec/opcode_table.json, each with the four fields that a word gives
beside its function code (spec/30_encoding.md R46 to R54). A constructor's name ends in its two octal digits, which is how the
source names instructions (R49, R58).
-/

namespace Sys2Proof

/-- K, the modifier source (R50): none, the B register, the accumulator A, the Sequence Control Register S. -/
inductive ModSource
  | unmodified
  | byB
  | byA
  | byS
deriving DecidableEq, Repr

/-- The fields L (interrupt lock, R47), M (store mode, R48), K (R50) and N (literal or address, R51) of an instruction word. -/
structure Fields where
  l : Bool
  m : Bool
  k : ModSource
  n : BitVec 10
deriving DecidableEq, Repr

/-- An instruction of the Elliott 502 (R54). -/
inductive Instr
  /-- Function 00, "ADD B" (R63). -/
  | addB00 (f : Fields)
  /-- Function 01, "SUBTRACT B" (R64). -/
  | subB01 (f : Fields)
  /-- Function 02, "REVERSE SUBTRACT B" (R65). -/
  | revB02 (f : Fields)
  /-- Function 03, "LOAD B" (R66). -/
  | loadB03 (f : Fields)
  /-- Function 04, "ADD B to store" (R67). -/
  | addBToStore04 (f : Fields)
  /-- Function 05, "SUBTRACT B from store" (R68). -/
  | subBFromStore05 (f : Fields)
  /-- Function 06, "REVERSE SUBTRACT B from store" (R69). -/
  | revBFromStore06 (f : Fields)
  /-- Function 07, "STORE B" (R70). -/
  | storeB07 (f : Fields)
  /-- Function 10, "ADD A" (R71). -/
  | addA10 (f : Fields)
  /-- Function 11, "SUBTRACT A" (R72). -/
  | subA11 (f : Fields)
  /-- Function 12, "REVERSE SUBTRACT A" (R73). -/
  | revA12 (f : Fields)
  /-- Function 13, "LOAD A" (R74). -/
  | loadA13 (f : Fields)
  /-- Function 14, "ADD A to store" (R75). -/
  | addAToStore14 (f : Fields)
  /-- Function 15, "SUB A from store" (R76). -/
  | subAFromStore15 (f : Fields)
  /-- Function 16, "REV SUBTRACT A from store" (R77). -/
  | revAFromStore16 (f : Fields)
  /-- Function 17, "STORE A" (R78). -/
  | storeA17 (f : Fields)
  /-- Function 20, "ADD B" (R81). -/
  | addB20 (f : Fields)
  /-- Function 21, "SUBTRACT B" (R82). -/
  | subB21 (f : Fields)
  /-- Function 22, "REVERSE SUBTRACT B" (R83). -/
  | revB22 (f : Fields)
  /-- Function 23, "LOAD B" (R84). -/
  | loadB23 (f : Fields)
  /-- Function 24, "ADD B to store" (R85). -/
  | addBToStore24 (f : Fields)
  /-- Function 25, "SUBTRACT B from store" (R86). -/
  | subBFromStore25 (f : Fields)
  /-- Function 26, "REVERSE SUBTRACT B from store" (R87). -/
  | revBFromStore26 (f : Fields)
  /-- Function 27, "STORE B" (R88). -/
  | storeB27 (f : Fields)
  /-- Function 30, "ADD A" (R89). -/
  | addA30 (f : Fields)
  /-- Function 31, "SUBTRACT A" (R90). -/
  | subA31 (f : Fields)
  /-- Function 32, "REVERSE SUBTRACT A" (R91). -/
  | revA32 (f : Fields)
  /-- Function 33, "LOAD A" (R92). -/
  | loadA33 (f : Fields)
  /-- Function 34, "ADD A to store" (R93). -/
  | addAToStore34 (f : Fields)
  /-- Function 35, "SUBTRACT A from store" (R94). -/
  | subAFromStore35 (f : Fields)
  /-- Function 36, "REVERSE SUBTRACT A from store" (R95). -/
  | revAFromStore36 (f : Fields)
  /-- Function 37, "STORE A" (R96). -/
  | storeA37 (f : Fields)
  /-- Function 40, "Jump if b not equal to zero and INC B" (R99). -/
  | jumpIncB40 (f : Fields)
  /-- Function 41, "Jump if b not equal to zero and DEC B" (R100). -/
  | jumpDecB41 (f : Fields)
  /-- Function 42, "Jump if b = 0" (R101). -/
  | jumpBZero42 (f : Fields)
  /-- Function 43, "Subroutine entry" (R102). -/
  | subEntry43 (f : Fields)
  /-- Function 44, "Jump if acc >= 0" (R103). -/
  | jumpAGeZero44 (f : Fields)
  /-- Function 45, "Jump if acc < 0" (R104). -/
  | jumpALtZero45 (f : Fields)
  /-- Function 46, "Jump if acc = 0" (R105). -/
  | jumpAZero46 (f : Fields)
  /-- Function 47, "Jump if overflow" (R106). -/
  | jumpOverflow47 (f : Fields)
  /-- Function 50, "absolute unconditional jump" (R109). -/
  | jumpAbs50 (f : Fields)
  /-- Function 51, "relative branch" (R110). -/
  | jumpRel51 (f : Fields)
  /-- Function 52, "logical AND" (R111). -/
  | andA52 (f : Fields)
  /-- Function 53, "load R" (R112). -/
  | loadR53 (f : Fields)
  /-- Function 54, "memory INC" (R113). -/
  | incStore54 (f : Fields)
  /-- Function 55, "memory DEC" (R114). -/
  | decStore55 (f : Fields)
  /-- Function 56, "memory logical AND" (R115). -/
  | andStore56 (f : Fields)
  /-- Function 57, "store R" (R116). -/
  | storeR57 (f : Fields)
  /-- Function 60, "logical shift left" (R120). -/
  | shiftLogical60 (f : Fields)
  /-- Function 61, "arithmetical shift left" (R121). -/
  | shiftArith61 (f : Fields)
  /-- Function 62, "double-length arithmetical shift" (R122). -/
  | shiftDouble62 (f : Fields)
  /-- Function 63, "Square root" (R123). -/
  | squareRoot63 (f : Fields)
  /-- Function 64, "Multiply, double-length" (R124). -/
  | mulDouble64 (f : Fields)
  /-- Function 65, "Multiply single-length; R cleared" (R125). -/
  | mulSingle65 (f : Fields)
  /-- Function 66, "Divide double-length" (R126). -/
  | divDouble66 (f : Fields)
  /-- Function 67, "Divide single-length; R cleared" (R127). -/
  | divSingle67 (f : Fields)
  /-- Function 70, "add data from input device N" (R131). -/
  | inputAdd70 (f : Fields)
  /-- Function 71, "Unallocated; causes a dynamic stop" (R132). -/
  | stop71 (f : Fields)
  /-- Function 72, "Unallocated; causes a dynamic stop" (R133). -/
  | stop72 (f : Fields)
  /-- Function 73, "read data from input device N" (R134). -/
  | inputRead73 (f : Fields)
  /-- Function 74, "Used to control autonomous transfer devices; no details have yet come to light" (R135). -/
  | autoControl74 (f : Fields)
  /-- Function 75, "Unallocated; causes a dynamic stop" (R136). -/
  | stop75 (f : Fields)
  /-- Function 76, "Causes a Program Break; re-enter at n or N" (R137). -/
  | programBreak76 (f : Fields)
  /-- Function 77, "write acc to output device N" (R138). -/
  | output77 (f : Fields)
deriving DecidableEq, Repr

end Sys2Proof
end

