-- ==== Sys2Proof/WellFormed.lean ====
section
/-!
DEFINITION. Well-formed instructions: those to which the spec gives a meaning in some state. Three checks: an entry for M
(spec/30_encoding.md R56), a device number that fits the highway (spec/45_group_7.md R128), a function with an effect
(R135). The widths of L, M, K and N need no check: their types are exactly as wide as the fields (log 29).
-/

namespace Sys2Proof

/-- The fields L, M, K and N of an instruction. -/
def Instr.fields : Instr → Fields
  | .addB00 f => f
  | .subB01 f => f
  | .revB02 f => f
  | .loadB03 f => f
  | .addBToStore04 f => f
  | .subBFromStore05 f => f
  | .revBFromStore06 f => f
  | .storeB07 f => f
  | .addA10 f => f
  | .subA11 f => f
  | .revA12 f => f
  | .loadA13 f => f
  | .addAToStore14 f => f
  | .subAFromStore15 f => f
  | .revAFromStore16 f => f
  | .storeA17 f => f
  | .addB20 f => f
  | .subB21 f => f
  | .revB22 f => f
  | .loadB23 f => f
  | .addBToStore24 f => f
  | .subBFromStore25 f => f
  | .revBFromStore26 f => f
  | .storeB27 f => f
  | .addA30 f => f
  | .subA31 f => f
  | .revA32 f => f
  | .loadA33 f => f
  | .addAToStore34 f => f
  | .subAFromStore35 f => f
  | .revAFromStore36 f => f
  | .storeA37 f => f
  | .jumpIncB40 f => f
  | .jumpDecB41 f => f
  | .jumpBZero42 f => f
  | .subEntry43 f => f
  | .jumpAGeZero44 f => f
  | .jumpALtZero45 f => f
  | .jumpAZero46 f => f
  | .jumpOverflow47 f => f
  | .jumpAbs50 f => f
  | .jumpRel51 f => f
  | .andA52 f => f
  | .loadR53 f => f
  | .incStore54 f => f
  | .decStore55 f => f
  | .andStore56 f => f
  | .storeR57 f => f
  | .shiftLogical60 f => f
  | .shiftArith61 f => f
  | .shiftDouble62 f => f
  | .squareRoot63 f => f
  | .mulDouble64 f => f
  | .mulSingle65 f => f
  | .divDouble66 f => f
  | .divSingle67 f => f
  | .inputAdd70 f => f
  | .stop71 f => f
  | .stop72 f => f
  | .inputRead73 f => f
  | .autoControl74 f => f
  | .stop75 f => f
  | .programBreak76 f => f
  | .output77 f => f

/-- Functions 04 to 07 and 14 to 17, the store-result functions whose operand is a literal when M = 0 and whose M = 0 entry
does not exist (R56). -/
def Instr.needsM1 : Instr → Bool
  | .addB00 _ => false
  | .subB01 _ => false
  | .revB02 _ => false
  | .loadB03 _ => false
  | .addBToStore04 _ => true
  | .subBFromStore05 _ => true
  | .revBFromStore06 _ => true
  | .storeB07 _ => true
  | .addA10 _ => false
  | .subA11 _ => false
  | .revA12 _ => false
  | .loadA13 _ => false
  | .addAToStore14 _ => true
  | .subAFromStore15 _ => true
  | .revAFromStore16 _ => true
  | .storeA17 _ => true
  | .addB20 _ => false
  | .subB21 _ => false
  | .revB22 _ => false
  | .loadB23 _ => false
  | .addBToStore24 _ => false
  | .subBFromStore25 _ => false
  | .revBFromStore26 _ => false
  | .storeB27 _ => false
  | .addA30 _ => false
  | .subA31 _ => false
  | .revA32 _ => false
  | .loadA33 _ => false
  | .addAToStore34 _ => false
  | .subAFromStore35 _ => false
  | .revAFromStore36 _ => false
  | .storeA37 _ => false
  | .jumpIncB40 _ => false
  | .jumpDecB41 _ => false
  | .jumpBZero42 _ => false
  | .subEntry43 _ => false
  | .jumpAGeZero44 _ => false
  | .jumpALtZero45 _ => false
  | .jumpAZero46 _ => false
  | .jumpOverflow47 _ => false
  | .jumpAbs50 _ => false
  | .jumpRel51 _ => false
  | .andA52 _ => false
  | .loadR53 _ => false
  | .incStore54 _ => false
  | .decStore55 _ => false
  | .andStore56 _ => false
  | .storeR57 _ => false
  | .shiftLogical60 _ => false
  | .shiftArith61 _ => false
  | .shiftDouble62 _ => false
  | .squareRoot63 _ => false
  | .mulDouble64 _ => false
  | .mulSingle65 _ => false
  | .divDouble66 _ => false
  | .divSingle67 _ => false
  | .inputAdd70 _ => false
  | .stop71 _ => false
  | .stop72 _ => false
  | .inputRead73 _ => false
  | .autoControl74 _ => false
  | .stop75 _ => false
  | .programBreak76 _ => false
  | .output77 _ => false

/-- Functions 70, 73 and 77, whose N names a device (R128). -/
def Instr.namesDevice : Instr → Bool
  | .addB00 _ => false
  | .subB01 _ => false
  | .revB02 _ => false
  | .loadB03 _ => false
  | .addBToStore04 _ => false
  | .subBFromStore05 _ => false
  | .revBFromStore06 _ => false
  | .storeB07 _ => false
  | .addA10 _ => false
  | .subA11 _ => false
  | .revA12 _ => false
  | .loadA13 _ => false
  | .addAToStore14 _ => false
  | .subAFromStore15 _ => false
  | .revAFromStore16 _ => false
  | .storeA17 _ => false
  | .addB20 _ => false
  | .subB21 _ => false
  | .revB22 _ => false
  | .loadB23 _ => false
  | .addBToStore24 _ => false
  | .subBFromStore25 _ => false
  | .revBFromStore26 _ => false
  | .storeB27 _ => false
  | .addA30 _ => false
  | .subA31 _ => false
  | .revA32 _ => false
  | .loadA33 _ => false
  | .addAToStore34 _ => false
  | .subAFromStore35 _ => false
  | .revAFromStore36 _ => false
  | .storeA37 _ => false
  | .jumpIncB40 _ => false
  | .jumpDecB41 _ => false
  | .jumpBZero42 _ => false
  | .subEntry43 _ => false
  | .jumpAGeZero44 _ => false
  | .jumpALtZero45 _ => false
  | .jumpAZero46 _ => false
  | .jumpOverflow47 _ => false
  | .jumpAbs50 _ => false
  | .jumpRel51 _ => false
  | .andA52 _ => false
  | .loadR53 _ => false
  | .incStore54 _ => false
  | .decStore55 _ => false
  | .andStore56 _ => false
  | .storeR57 _ => false
  | .shiftLogical60 _ => false
  | .shiftArith61 _ => false
  | .shiftDouble62 _ => false
  | .squareRoot63 _ => false
  | .mulDouble64 _ => false
  | .mulSingle65 _ => false
  | .divDouble66 _ => false
  | .divSingle67 _ => false
  | .inputAdd70 _ => true
  | .stop71 _ => false
  | .stop72 _ => false
  | .inputRead73 _ => true
  | .autoControl74 _ => false
  | .stop75 _ => false
  | .programBreak76 _ => false
  | .output77 _ => true

/-- Function 74, of which "no details have yet come to light" (R135). -/
def Instr.hasNoEffectGiven : Instr → Bool
  | .addB00 _ => false
  | .subB01 _ => false
  | .revB02 _ => false
  | .loadB03 _ => false
  | .addBToStore04 _ => false
  | .subBFromStore05 _ => false
  | .revBFromStore06 _ => false
  | .storeB07 _ => false
  | .addA10 _ => false
  | .subA11 _ => false
  | .revA12 _ => false
  | .loadA13 _ => false
  | .addAToStore14 _ => false
  | .subAFromStore15 _ => false
  | .revAFromStore16 _ => false
  | .storeA17 _ => false
  | .addB20 _ => false
  | .subB21 _ => false
  | .revB22 _ => false
  | .loadB23 _ => false
  | .addBToStore24 _ => false
  | .subBFromStore25 _ => false
  | .revBFromStore26 _ => false
  | .storeB27 _ => false
  | .addA30 _ => false
  | .subA31 _ => false
  | .revA32 _ => false
  | .loadA33 _ => false
  | .addAToStore34 _ => false
  | .subAFromStore35 _ => false
  | .revAFromStore36 _ => false
  | .storeA37 _ => false
  | .jumpIncB40 _ => false
  | .jumpDecB41 _ => false
  | .jumpBZero42 _ => false
  | .subEntry43 _ => false
  | .jumpAGeZero44 _ => false
  | .jumpALtZero45 _ => false
  | .jumpAZero46 _ => false
  | .jumpOverflow47 _ => false
  | .jumpAbs50 _ => false
  | .jumpRel51 _ => false
  | .andA52 _ => false
  | .loadR53 _ => false
  | .incStore54 _ => false
  | .decStore55 _ => false
  | .andStore56 _ => false
  | .storeR57 _ => false
  | .shiftLogical60 _ => false
  | .shiftArith61 _ => false
  | .shiftDouble62 _ => false
  | .squareRoot63 _ => false
  | .mulDouble64 _ => false
  | .mulSingle65 _ => false
  | .divDouble66 _ => false
  | .divSingle67 _ => false
  | .inputAdd70 _ => false
  | .stop71 _ => false
  | .stop72 _ => false
  | .inputRead73 _ => false
  | .autoControl74 _ => true
  | .stop75 _ => false
  | .programBreak76 _ => false
  | .output77 _ => false

/-- Check 1: the source's table has an entry for the instruction's M (R56). -/
def Instr.entryOk (i : Instr) : Bool := !i.needsM1 || i.fields.m

/-- Check 2: an unmodified device number is below 16 (R128). -/
def Instr.deviceOk (i : Instr) : Bool :=
  !i.namesDevice || i.fields.k != .unmodified || decide (i.fields.n.toNat < 16)

/-- Check 3: the function is not 74 (R135). -/
def Instr.effectOk (i : Instr) : Bool := !i.hasNoEffectGiven

/-- An instruction to which the spec gives a meaning in some state. -/
def Instr.wf (i : Instr) : Bool := i.entryOk && i.deviceOk && i.effectOk

end Sys2Proof
end

