-- ==== Sys2Proof/Decode.lean ====
section
/-!
DEFINITION. Decoding, encoding, and the words of the opcode table (spec/30_encoding.md R45, R46, R54). There is one format and
every one of the 64 function codes is listed, so decoding a word never fails: no encoding is reserved (R55 and R56 are outcomes
of obeying, not of decoding).
-/

namespace Sys2Proof

/-- L = w[19] (R46). -/
def fieldL (w : Word) : Bool := w.getLsbD 19

/-- M = w[18] (R46). -/
def fieldM (w : Word) : Bool := w.getLsbD 18

/-- F = w[17:12] (R46, R49). -/
def fieldF (w : Word) : BitVec 6 := w.extractLsb' 12 6

/-- K = w[11:10] (R46). -/
def fieldK (w : Word) : BitVec 2 := w.extractLsb' 10 2

/-- N = w[9:0] (R46). -/
def fieldN (w : Word) : BitVec 10 := w.extractLsb' 0 10

/-- The modifier source a value of K names (R50). -/
def ModSource.ofBits (k : BitVec 2) : ModSource :=
  match k.toNat with
  | 0 => .unmodified
  | 1 => .byB
  | 2 => .byA
  | _ => .byS

/-- The value of K of a modifier source (R50). -/
def ModSource.bits : ModSource → BitVec 2
  | .unmodified => 0
  | .byB => 1
  | .byA => 2
  | .byS => 3

/-- The fields L, M, K and N of a word. -/
def fieldsOf (w : Word) : Fields :=
  { l := fieldL w, m := fieldM w, k := ModSource.ofBits (fieldK w), n := fieldN w }

/-- The instruction of a function code (the opcode map, R54). -/
def instrOf (code : BitVec 6) (f : Fields) : Instr :=
  match code.toNat with
  | 0 => .addB00 f
  | 1 => .subB01 f
  | 2 => .revB02 f
  | 3 => .loadB03 f
  | 4 => .addBToStore04 f
  | 5 => .subBFromStore05 f
  | 6 => .revBFromStore06 f
  | 7 => .storeB07 f
  | 8 => .addA10 f
  | 9 => .subA11 f
  | 10 => .revA12 f
  | 11 => .loadA13 f
  | 12 => .addAToStore14 f
  | 13 => .subAFromStore15 f
  | 14 => .revAFromStore16 f
  | 15 => .storeA17 f
  | 16 => .addB20 f
  | 17 => .subB21 f
  | 18 => .revB22 f
  | 19 => .loadB23 f
  | 20 => .addBToStore24 f
  | 21 => .subBFromStore25 f
  | 22 => .revBFromStore26 f
  | 23 => .storeB27 f
  | 24 => .addA30 f
  | 25 => .subA31 f
  | 26 => .revA32 f
  | 27 => .loadA33 f
  | 28 => .addAToStore34 f
  | 29 => .subAFromStore35 f
  | 30 => .revAFromStore36 f
  | 31 => .storeA37 f
  | 32 => .jumpIncB40 f
  | 33 => .jumpDecB41 f
  | 34 => .jumpBZero42 f
  | 35 => .subEntry43 f
  | 36 => .jumpAGeZero44 f
  | 37 => .jumpALtZero45 f
  | 38 => .jumpAZero46 f
  | 39 => .jumpOverflow47 f
  | 40 => .jumpAbs50 f
  | 41 => .jumpRel51 f
  | 42 => .andA52 f
  | 43 => .loadR53 f
  | 44 => .incStore54 f
  | 45 => .decStore55 f
  | 46 => .andStore56 f
  | 47 => .storeR57 f
  | 48 => .shiftLogical60 f
  | 49 => .shiftArith61 f
  | 50 => .shiftDouble62 f
  | 51 => .squareRoot63 f
  | 52 => .mulDouble64 f
  | 53 => .mulSingle65 f
  | 54 => .divDouble66 f
  | 55 => .divSingle67 f
  | 56 => .inputAdd70 f
  | 57 => .stop71 f
  | 58 => .stop72 f
  | 59 => .inputRead73 f
  | 60 => .autoControl74 f
  | 61 => .stop75 f
  | 62 => .programBreak76 f
  | _ => .output77 f

/-- `decode`: the instruction a word holds (R46, R54). Total: every word holds one. -/
def decode (w : Word) : Instr := instrOf (fieldF w) (fieldsOf w)

/-- The six bits F of an instruction: its two octal digits (R49, R54). -/
def Instr.code : Instr → BitVec 6
  | .addB00 _ => 0
  | .subB01 _ => 1
  | .revB02 _ => 2
  | .loadB03 _ => 3
  | .addBToStore04 _ => 4
  | .subBFromStore05 _ => 5
  | .revBFromStore06 _ => 6
  | .storeB07 _ => 7
  | .addA10 _ => 8
  | .subA11 _ => 9
  | .revA12 _ => 10
  | .loadA13 _ => 11
  | .addAToStore14 _ => 12
  | .subAFromStore15 _ => 13
  | .revAFromStore16 _ => 14
  | .storeA17 _ => 15
  | .addB20 _ => 16
  | .subB21 _ => 17
  | .revB22 _ => 18
  | .loadB23 _ => 19
  | .addBToStore24 _ => 20
  | .subBFromStore25 _ => 21
  | .revBFromStore26 _ => 22
  | .storeB27 _ => 23
  | .addA30 _ => 24
  | .subA31 _ => 25
  | .revA32 _ => 26
  | .loadA33 _ => 27
  | .addAToStore34 _ => 28
  | .subAFromStore35 _ => 29
  | .revAFromStore36 _ => 30
  | .storeA37 _ => 31
  | .jumpIncB40 _ => 32
  | .jumpDecB41 _ => 33
  | .jumpBZero42 _ => 34
  | .subEntry43 _ => 35
  | .jumpAGeZero44 _ => 36
  | .jumpALtZero45 _ => 37
  | .jumpAZero46 _ => 38
  | .jumpOverflow47 _ => 39
  | .jumpAbs50 _ => 40
  | .jumpRel51 _ => 41
  | .andA52 _ => 42
  | .loadR53 _ => 43
  | .incStore54 _ => 44
  | .decStore55 _ => 45
  | .andStore56 _ => 46
  | .storeR57 _ => 47
  | .shiftLogical60 _ => 48
  | .shiftArith61 _ => 49
  | .shiftDouble62 _ => 50
  | .squareRoot63 _ => 51
  | .mulDouble64 _ => 52
  | .mulSingle65 _ => 53
  | .divDouble66 _ => 54
  | .divSingle67 _ => 55
  | .inputAdd70 _ => 56
  | .stop71 _ => 57
  | .stop72 _ => 58
  | .inputRead73 _ => 59
  | .autoControl74 _ => 60
  | .stop75 _ => 61
  | .programBreak76 _ => 62
  | .output77 _ => 63

/-- `word = L ++ M ++ F[5:0] ++ K[1:0] ++ N[9:0]` (R46), the word of an instruction. -/
def encode (i : Instr) : Word :=
  (BitVec.ofBool i.fields.l ++ BitVec.ofBool i.fields.m ++ i.code ++ i.fields.k.bits ++ i.fields.n).cast (by decide)

/-- The instruction the decoder reads from a row's bits. A word of the store is 20 bits and the table counts bits in whole
bytes, so that a number of 2^20 or more is no word (log 32). -/
def decodeTableWord (nbits w : Nat) : Option Instr :=
  if w % 2 ^ nbits < 2 ^ 20 then some (decode (BitVec.ofNat 20 (w % 2 ^ nbits))) else none

end Sys2Proof
end

