-- ==== Sys2Proof/Machine/State.lean ====
section
/-!
DEFINITION. The state of the machine (spec/10_state.md), the reasons a step can stop, and the launch state (R162) the model
starts from. State is plain data. INVENTORY.md lists every field with its rule and its value at reset.
-/

namespace Sys2Proof.Machine

/-- A stop that names an access which the machine's stores cannot answer. -/
inductive Fault
  /-- `Unspecified(AddressOutOfRange)`: a store access or a taken jump at or beyond the size of the store (R31). Raised by
  every function with a store operand, 40 to 47, 50, 51, 76, and a fetch to which no stepping led. Safe: the spec gives the
  step no next state (R7). -/
  | addressOutOfRange
  /-- `Unspecified(SequenceOverrun)`: S has stepped past the last word of its store and a fetch is attempted (R16, R60). Raised
  by the fetch. Safe, as above. -/
  | sequenceOverrun
  /-- A read or fetch of a store word that neither the launch state nor an earlier step has given a value (R26). Raised by every
  store read. Safe: the machine goes on with a word the spec does not give (log 4). -/
  | unwrittenWord
deriving DecidableEq, Repr

/-- The other reasons of the closed list of `Unspecified` outcomes (spec/93_implementation_defined.md section 2), each of which
the spec treats `refuse`: the step has no next state. All are safe (log 24). -/
inductive Refusal
  /-- An instruction whose meaning is not written yet. Raised by exec's arm only. Safe. -/
  | notModelled (mnemonic : String)
  /-- `Unspecified(NoEntryM0)`: 04 to 07 and 14 to 17 with M = 0 (R56). Safe. -/
  | noEntryM0
  /-- `Unspecified(ShiftCountTooLarge)`: 60, 61, 62 with a count of 1024 or more (R117). Safe. -/
  | shiftCountTooLarge
  /-- `Unspecified(ArithShiftOverflow)`: 61, 62 would shift a significant bit out (R121, R122). Safe. -/
  | arithShiftOverflow
  /-- `Unspecified(DoubleLengthMalformed)`: R[19] = 1 at the start of 62, 66, 67 (R118). Safe. -/
  | doubleLengthMalformed
  /-- `Unspecified(MultiplyOverflow)`: 64, 65 with both factors -1 (R124, R125). Safe. -/
  | multiplyOverflow
  /-- `Unspecified(DivideByZero)`: 66, 67 with a zero divisor (R126, R127). Safe. -/
  | divideByZero
  /-- `Unspecified(QuotientOverflow)`: 66, 67 with a quotient of magnitude 1 or more (R126, R127). Safe. -/
  | quotientOverflow
  /-- `Unspecified(SqrtDomain)`: 63 with a sum below 0 or above 1 - 2^-19 (R123). Safe. -/
  | sqrtDomain
  /-- `Unspecified(DeviceOutOfRange)`: 70, 73, 77 with a device number of 16 or more (R128). Safe. -/
  | deviceOutOfRange
  /-- `Unspecified(UnknownDevice)`: 70, 73, 77 with a number not in `DEVICES` (R128). Safe. -/
  | unknownDevice
  /-- `Unspecified(Function74)`: function 74, always (R135). Safe. -/
  | function74
deriving DecidableEq, Repr

/-- Why an instruction does not complete: a fault or a refusal. -/
inductive Stop
  | fault (r : Fault)
  | refused (r : Refusal)
deriving DecidableEq, Repr

/-- What a part of an instruction answers: a value, or the reason it stops. -/
abbrev Result (α : Type) := Except Stop α

/-- A store as the list of the words that have a value, addresses strictly rising. The unit of both stores is the 20-bit word
(R28), so a cell is a word address with its word (log 32). -/
abbrev Memory := List (Nat × Word)

/-- What the environment may do at an instruction boundary (R2 agents 2 and 3; log 19). -/
inductive EnvEvent
  /-- The external world raises a level's demand (R144). -/
  | demand (l : Level)
  /-- The operator presses a level's push-button, "emulating each stimulus" (R144, R158). -/
  | pushButton (l : Level)
  /-- The operator turns a level's switch to enable (true) or mask (R146, R158). -/
  | setSwitch (l : Level) (enabled : Bool)
  /-- A datum becomes available at an input device (R129, R130). -/
  | deliver (d : Device) (w : Word)
  /-- A device becomes busy, or ready again (R130). -/
  | setBusy (d : Device) (b : Bool)
  /-- One autonomous word transfer: the words it leaves in the stores, its datum on input and its adjusted pointer and counter,
  whose places and values the source does not give (R155; log 20). -/
  | transfer (writes : List (Place × Word))
  /-- The PCR comes to hold something else without a 77/2. R149 counts a PCR change among the events of an environment that is
  not quiet, and R139 says that the PCR "contains an indication of where a given program has been prevented from running"; the
  source does not say what but 77/2 changes it, or when. That any change may come at any boundary is the model's choice (DESIGN
  CHOICE, log 43). -/
  | pcrChange (p : Pcr)
deriving DecidableEq, Repr

/-- The machine's state: what spec/10_state.md names, and at the end the model's own three fields. -/
structure State where
  /-- A, the accumulator (R10). -/
  a : Word
  /-- B, the modifier register (R11). -/
  b : Word
  /-- R, the auxiliary register (R12). -/
  r : Word
  /-- OV, the overflow indicator (R17). -/
  ov : Bool
  /-- S, the Sequence Control Register: the store and address of the next instruction (R14). -/
  seq : Place
  /-- LOCK, the interrupt lock (R20). -/
  lock : Bool
  /-- Fast RAM (R23). -/
  fast : Memory
  /-- Main RAM (R24). -/
  main : Memory
  /-- The Program Control Register (R19). -/
  pcr : Pcr
  /-- STIM[l]: the level's stimulus is present (R21). -/
  stim : Vector Bool 7
  /-- SWITCH[l]: the console switch enables the stimulus (R21). -/
  switch : Vector Bool 7
  /-- REENTRY[l]: where the level resumes (R21). -/
  reentry : Vector Place 7
  /-- CUR, the current operating priority level (R21). -/
  cur : Level
  /-- The processor idles: no level can run, no instruction is obeyed (R152). -/
  idle : Bool
  /-- The data each input device has and the processor has not yet taken, oldest first (R129, R162). -/
  inputs : Vector (List Word) 16
  /-- The device is busy and can take part in no transfer now (R130). -/
  busy : Vector Bool 16
  /-- The words output so far, oldest first: the events `dev_out` (R129; log 34). -/
  outputs : List (Device × Word)
  /-- The model's own: what the environment does at the next boundary, at the one after it, and so on; after the list's end it
  is quiet (log 19). -/
  env : List (List EnvEvent)
  /-- The model's own: how many free values have been drawn (log 9, log 10). -/
  draws : Nat
  /-- The model's own: the OPEN parameters of R3, which no step changes (log 5, 6, 7). -/
  params : Params
deriving DecidableEq, Repr

/-- The parameters of the launch state, all DESIGN CHOICE: 1024 and 8192 words are the sizes spec/95_test_vectors.md takes
(log 5), level 6 is highest (log 6), no device beyond 0, 1, 2 (log 7). -/
def launchParams : Params :=
  { fastWords := 1024
    mainWords := 8192
    rank := Vector.replicate 7 0
    platform := Vector.replicate 16 false }

/-- The launch state the model starts from, in place of a reset state. The spec gives no register, indicator or store word a
value after switching on and names no address at which the machine begins (R26, R161). R162 gives LOCK = 0, a current level
that is runnable and the best, and no autonomous transfer in progress; every other value is the model's own (DESIGN CHOICE, log
1, 2, 3). No store word has a value (log 4): a program is loaded from outside (log 2). This is one of the states that
`State.Launch` of Sys2Proof/Safety.lean allows. -/
def State.reset : State :=
  { a := 0
    b := 0
    r := 0
    ov := false
    seq := ⟨.fast, 0⟩
    lock := false
    fast := []
    main := []
    pcr := { allowed := Vector.replicate 7 true, content := 0 }
    stim := (Vector.replicate 7 false).set 0 true
    switch := Vector.replicate 7 true
    reentry := Vector.replicate 7 ⟨.fast, 0⟩
    cur := 0
    idle := false
    inputs := Vector.replicate 16 []
    busy := Vector.replicate 16 false
    outputs := []
    env := []
    draws := 0
    params := launchParams }

end Sys2Proof.Machine
end

