-- ==== Sys2Proof/Machine/Flags.lean ====
section
/-!
DEFINITION. Overflow and the indicator OV (spec/10_state.md R17; spec/40_groups_0_1.md R62; spec/41_groups_2_3.md R80). OV is
the machine's only flag.
-/

namespace Sys2Proof.Machine

/-- `overflow`: the exact result t is outside -2^19 to 2^19 - 1, that is outside -1 to 1 - 2^-19 as a fraction (R62). -/
def outOfRange (t : Int) : Bool := decide (t < -2 ^ 19) || decide (2 ^ 19 - 1 < t)

/-- Group 3: `if overflow then OV <- 1`, otherwise OV is unchanged; OV is sticky (R80). -/
def State.setOv (overflow : Bool) (s : State) : State := { s with ov := s.ov || overflow }

/-- Outside Group 3: `if overflow then OV <- draw{OV, 1}`, otherwise OV is unchanged (R62, parameter `OV_SCOPE`). The draw is a
free value (log 9). -/
def State.drawOv (overflow : Bool) (s : State) : State :=
  if overflow then { s with ov := s.ov || Config.ovDraw s.draws, draws := s.draws + 1 } else s

end Sys2Proof.Machine
end

