-- ==== Sys2Proof/Machine/Ops.lean ====
section
/-!
DEFINITION. The shared operations: the stores (spec/20_memory.md), the sequence control register and the instruction cycle
(spec/30_encoding.md R60), the programme levels and the Program Break (spec/60_exceptions.md), the devices
(spec/45_group_7.md R128 to R130) and the environment (R2, R155).
-/

namespace Sys2Proof.Machine

/-! ## The stores (R28, R31, R37) -/

/-- The word a store holds at an address; no value where nothing has been written (R26, log 4). -/
def Memory.read : Memory → Nat → Option Word
  | [], _ => none
  | (k, w) :: rest, a => if a = k then some w else Memory.read rest a

/-- The store with one word written, its addresses still strictly rising. -/
def Memory.write : Memory → Nat → Word → Memory
  | [], a, v => [(a, v)]
  | (k, w) :: rest, a, v =>
    if a < k then (a, v) :: (k, w) :: rest
    else if a = k then (a, v) :: rest
    else (k, w) :: Memory.write rest a v

/-- The canonical form: addresses strictly rising. An unlisted address has no value, so no entry can equal what it reads as. -/
def Memory.wf : Memory → Bool
  | [] => true
  | [_] => true
  | (a, _) :: (b, w) :: rest => decide (a < b) && Memory.wf ((b, w) :: rest)

/-- The number of words of a store, `FAST_WORDS` or `MAIN_WORDS` (R23, R24). -/
def State.size (s : State) : StoreName → Nat
  | .fast => s.params.fastWords
  | .main => s.params.mainWords

/-- The contents of a store. -/
def State.memory (s : State) : StoreName → Memory
  | .fast => s.fast
  | .main => s.main

/-- The range check of R31. -/
def State.inRange (s : State) (p : Place) : Bool := decide (p.addr < s.size p.store)

/-- The word at a place, if it has one. -/
def State.peek (s : State) (p : Place) : Option Word := (s.memory p.store).read p.addr

/-- The state with one store word replaced. -/
def State.poke (s : State) (p : Place) (v : Word) : State :=
  match p.store with
  | .fast => { s with fast := s.fast.write p.addr v }
  | .main => { s with main := s.main.write p.addr v }

/-- `MemRead(p, 1)` (R31): the word at a place in range. -/
def State.read (s : State) (p : Place) : Result Word :=
  if s.inRange p then
    match s.peek p with
    | some w => .ok w
    | none => .error (.fault .unwrittenWord)
  else .error (.fault .addressOutOfRange)

/-- `MemWrite(p, 1, v)` (R31): a place in range receives a word. -/
def State.write (s : State) (p : Place) (v : Word) : Result State :=
  if s.inRange p then .ok (s.poke p v) else .error (.fault .addressOutOfRange)

/-! ## The sequence control register (R14 to R16) -/

/-- The 20-bit image of S (R15): bit 19 is the store, bits 18:0 the address. An address of 2^19, which only stepping off a store
of that size gives, shows its low 19 bits (log 17). -/
def imageOf (p : Place) : Word :=
  BitVec.ofNat 20 ((if p.store = .main then 2 ^ 19 else 0) + p.addr % 2 ^ 19)

/-- The next word of the same store. S does not wrap and does not cross into the other store (R16). -/
def nextPlace (p : Place) : Place := { p with addr := p.addr + 1 }

/-- Step 3 of the instruction cycle: S is advanced before the instruction is obeyed (R16, R60). -/
def State.advance (s : State) : State := { s with seq := nextPlace s.seq }

/-- A taken jump: the range check, then `pc <- target` (R97). -/
def State.jump (p : Place) (s : State) : Result State :=
  if s.inRange p then .ok { s with seq := p } else .error (.fault .addressOutOfRange)

/-! ## Obeying one instruction (R60 steps 3 to 6) -/

/-- The outcome of a step that stops. -/
def Stop.outcome : Stop → Host.Outcome State Fault Refusal
  | .fault r => .fault r
  | .refused r => .refused r

/-- An instruction that completes: S is advanced, the function's rule is obeyed, then `LOCK <- L` (R60 steps 3, 5, 6; R145). An
instruction that stops writes nothing. What a rule does not write keeps its value (R8; log 38). -/
def obey (f : Fields) (s : State) (rule : State → Result State) : Host.Outcome State Fault Refusal :=
  match rule s.advance with
  | .ok t => .next { t with lock := f.l }
  | .error e => e.outcome

/-- `hold` (R130): the step changes nothing, S stays at the instruction and step 6 is not performed (R145). -/
def hold (s : State) : Host.Outcome State Fault Refusal := .next s

/-- `DynamicStop(F)` (R142): S stays at the instruction, nothing else changes, `LOCK <- L`. -/
def dynamicStop (f : Fields) (s : State) : Host.Outcome State Fault Refusal := .next { s with lock := f.l }

/-! ## Programme levels (R144 to R148) -/

/-- `pcr_allows(PCR, l)` (R146; log 8). -/
def pcrAllows (p : Pcr) (l : Level) : Bool := p.allowed.get l

/-- `runnable(l)` (R146). -/
def State.runnable (s : State) (l : Level) : Bool := s.stim.get l && s.switch.get l && pcrAllows s.pcr l

/-- Level `l` is higher than level `m` in `PRIORITY` (R148; log 6). -/
def outranks (p : Params) (l m : Level) : Bool :=
  decide (p.rank.get m < p.rank.get l) || (p.rank.get m == p.rank.get l && decide (m < l))

/-- The runnable level highest in `PRIORITY` among those listed. -/
def State.bestAmong (s : State) : List Level → Option Level
  | [] => none
  | l :: rest =>
    match s.bestAmong rest with
    | none => if s.runnable l then some l else none
    | some m => if s.runnable l && outranks s.params l m then some l else some m

/-- `best` (R148): the runnable level highest in `PRIORITY`, if any level is runnable. -/
def State.best (s : State) : Option Level := s.bestAmong [0, 1, 2, 3, 4, 5, 6]

/-- The level's stimulus becomes present; a second demand is not counted (R144, R147; log 35). -/
def State.stimulate (l : Level) (s : State) : State := { s with stim := s.stim.set l.val true l.isLt }

/-- "The stimulus for the current operating priority level is cleared" (R137, R147). -/
def State.clearOwnStimulus (s : State) : State := { s with stim := s.stim.set s.cur.val false s.cur.isLt }

/-! ## The Program Break (R149 to R152): the machine's only interrupt entry, and its only return -/

/-- `REENTRY[CUR] <- S` (R149). -/
def State.saveReentry (s : State) : State :=
  { s with reentry := s.reentry.set s.cur.val s.seq s.cur.isLt }

/-- `CUR <- l; S <- REENTRY[l]` (R149): the level is entered, or resumed from idling (R152). -/
def State.enterLevel (l : Level) (s : State) : State := { s with cur := l, seq := s.reentry.get l, idle := false }

/-- The level switch: the best level is entered; with none runnable the processor idles (R149, R152). -/
def State.enterBest (s : State) : State :=
  match s.best with
  | some l => s.enterLevel l
  | none => { s with idle := true }

/-- `ProgramBreak()` (R149): taking a break saves the re-entry address and nothing else (R150). Entering the best level is also
the return to a level left earlier (R152). -/
def State.programBreak (s : State) : State := s.saveReentry.enterBest

/-- The break test of step 1 (R60, R149): with LOCK = 0, a break is due when the best level is not the current one. That
includes the case in which the current level has ceased to be runnable and no other is: the processor then idles (R152; log
26). -/
def State.breakDue (s : State) : Bool := !s.lock && s.best != some s.cur

/-- The level switching of step 1 (R60): idling goes on until some level is runnable, whatever LOCK is (R152); otherwise a break
that is due is taken. -/
def State.settleLevel (s : State) : State :=
  if s.idle then s.enterBest
  else if s.breakDue then s.programBreak
  else s

/-! ## The environment (R2, R144, R155, R158) -/

/-- One word left by an autonomous transfer; a place beyond the store is not one (log 20). -/
def State.transferWord (s : State) (p : Place × Word) : State := if s.inRange p.1 then s.poke p.1 p.2 else s

/-- What an event of the environment does (the events are log 19, that the PCR may change so is log 43). -/
def State.happen (s : State) : EnvEvent → State
  | .demand l => s.stimulate l
  | .pushButton l => s.stimulate l
  | .setSwitch l enabled => { s with switch := s.switch.set l.val enabled l.isLt }
  | .deliver d w => { s with inputs := s.inputs.set d.val (s.inputs.get d ++ [w]) d.isLt }
  | .setBusy d b => { s with busy := s.busy.set d.val b d.isLt }
  | .transfer writes => writes.foldl State.transferWord s
  | .pcrChange p => { s with pcr := p }

/-- The environment's events of one boundary, in their order. -/
def State.environment (s : State) : State :=
  match s.env with
  | [] => s
  | events :: later => events.foldl State.happen { s with env := later }

/-- Step 1 of the instruction cycle, between instructions: the environment acts, then the break test is made (R60). -/
def State.boundary (s : State) : State := s.environment.settleLevel

/-! ## Fetch (R60 step 2) -/

/-- The word at S. Beyond the store it is `SequenceOverrun` where stepping leads, one past the last word, and
`AddressOutOfRange` elsewhere (R31; log 25). -/
def State.fetch (s : State) : Result Word :=
  if s.seq.addr = s.size s.seq.store then .error (.fault .sequenceOverrun) else s.read s.seq

/-! ## Devices (R128 to R130, R139) -/

/-- `DEVICES`: 0, 1, 2 and the platform's additions (R128). -/
def State.hasDevice (s : State) (d : Device) : Bool := decide (d.val ≤ 2) || s.params.platform.get d

/-- Device 1, the 5-track paper tape reader (R128). -/
def tapeReader : Device := 1

/-- Device 2, the Program Control Register (R128, R139). -/
def pcrDevice : Device := 2

/-- The word T a datum gives: the tape reader delivers five bits, right-justified (R129; log 21). -/
def deviceWord (d : Device) (w : Word) : Word := if d = tapeReader then w &&& 0x1F#20 else w

/-- `T <- dev_in(d)` (R129), or nothing where the instruction must hold (R130). The PCR never holds and is not changed by a read
(R139). -/
def State.input (d : Device) (s : State) : Option (Word × State) :=
  if d = pcrDevice then some (Config.pcrRead s.pcr, s)
  else if s.busy.get d then none
  else
    match s.inputs.get d with
    | [] => none
    | w :: rest => some (deviceWord d w, { s with inputs := s.inputs.set d.val rest d.isLt })

/-- `dev_out(d, A)` (R129, R138), or nothing where the instruction must hold (R130). To the PCR it is `pcr_write` (R139). -/
def State.output (d : Device) (s : State) : Option State :=
  if d = pcrDevice then some { s with pcr := Config.pcrWrite s.pcr s.a }
  else if s.busy.get d then none
  else some { s with outputs := s.outputs ++ [(d, s.a)] }

end Sys2Proof.Machine
end

