-- ==== Sys2Proof/Machine/Operands.lean ====
section
/-!
DEFINITION. Address modification and the operand classes (spec/20_memory.md R29 to R33, spec/30_encoding.md R52, R53). Every
function here reads the state after S has advanced (R60 steps 3 and 4).
-/

namespace Sys2Proof.Machine

/-- `modifier(K)` (R29): 0, B, A, or the image of the advanced S. -/
def State.modifier (s : State) : ModSource → Word
  | .unmodified => 0
  | .byB => s.b
  | .byA => s.a
  | .byS => imageOf s.seq

/-- `Nm = word(zext_20(N) + uint(modifier(K)))` (R29): the modified N, in every one of its uses (R53). -/
def State.modifiedN (s : State) (f : Fields) : Word := word (f.n.toNat + uint (s.modifier f.k))

/-- `addr19(w) = w[18:0]` (R30). -/
def addr19 (w : Word) : Nat := (w.extractLsb' 0 19).toNat

/-- The store M names where it chooses between the two (R97, R108). -/
def storeOf (m : Bool) : StoreName := if m then .main else .fast

/-- FASTDIR or MAINDIR by M, and the class TARGET: `(M = 0 ? FAST : MAIN):addr19(Nm)` (R32, R97, R108). -/
def directPlace (f : Fields) (s : State) : Place := ⟨storeOf f.m, addr19 (s.modifiedN f)⟩

/-- The main-store place of Groups 0 and 1, class MAINDIR (R62). -/
def mainPlace (f : Fields) (s : State) : Place := ⟨.main, addr19 (s.modifiedN f)⟩

/-- The fast-store place of Groups 2 and 3: the operand when M = 0, the pointer word when M = 1 (R80). -/
def fastPlace (f : Fields) (s : State) : Place := ⟨.fast, addr19 (s.modifiedN f)⟩

/-- The operand value of 00 to 03 and 10 to 13: the literal `Nm`, or a main-store word (LIT / MAINDIR, R62). -/
def literalOrMain (f : Fields) (s : State) : Result Word :=
  if f.m then s.read (mainPlace f s) else .ok (s.modifiedN f)

/-- The location of 04 to 07 and 14 to 17: none when M = 0 (R56), a main-store word when M = 1 (R62). -/
def mainOnly (f : Fields) (s : State) : Result Place :=
  if f.m then .ok (mainPlace f s) else .error (.refused .noEntryM0)

/-- The location of Groups 2 and 3: the fast-store word when M = 0; when M = 1 the main-store word whose address is bits 18:0 of
the pointer word, read once from the fast store (FASTDIR / MAININD, R33, R80). -/
def fastOrIndirect (f : Fields) (s : State) : Result Place :=
  if f.m then
    match s.read (fastPlace f s) with
    | .ok p => .ok ⟨.main, addr19 p⟩
    | .error e => .error e
  else .ok (fastPlace f s)

/-- The location of 52 to 57 and 63 to 67, direct in the store M names (R108, R118). -/
def direct (f : Fields) (s : State) : Result Place := .ok (directPlace f s)

/-- The operand value at a location: `v <- MemRead(loc, 1)`. -/
def operandAt (loc : Fields → State → Result Place) (f : Fields) (s : State) : Result Word :=
  match loc f s with
  | .ok p => s.read p
  | .error e => .error e

/-- The target of 50 (R107, R109): direct, or through a store word under `JUMP5X = indirect`. -/
def target50 (f : Fields) (s : State) : Result Place :=
  match Config.jump5x with
  | .direct => .ok (directPlace f s)
  | .indirect =>
    match s.read (directPlace f s) with
    | .ok w => .ok ⟨storeOf f.m, addr19 w⟩
    | .error e => .error e

/-- `(S.addr - uint(w)) mod 2^19` in the store M names (R107, R110). -/
def backFrom (f : Fields) (s : State) (w : Word) : Place :=
  ⟨storeOf f.m, (((s.seq.addr : Int) - (uint w : Int)) % 2 ^ 19).toNat⟩

/-- The target of 51 (R107, R110), class RELTARGET. -/
def target51 (f : Fields) (s : State) : Result Place :=
  match Config.jump5x with
  | .direct => .ok (backFrom f s (s.modifiedN f))
  | .indirect =>
    match s.read (directPlace f s) with
    | .ok w => .ok (backFrom f s w)
    | .error e => .error e

/-- The shift count of 60, 61, 62, below 1024 (R117). M is not used. -/
def shiftCount (f : Fields) (s : State) : Result Nat :=
  if uint (s.modifiedN f) < 1024 then .ok (uint (s.modifiedN f)) else .error (.refused .shiftCountTooLarge)

/-- The device number of 70, 73, 77 (R128). M is not used. -/
def deviceNumber (f : Fields) (s : State) : Result Device :=
  if h : uint (s.modifiedN f) < 16 then
    if s.hasDevice ⟨uint (s.modifiedN f), h⟩ then .ok ⟨uint (s.modifiedN f), h⟩
    else .error (.refused .unknownDevice)
  else .error (.refused .deviceOutOfRange)

/-- Function 44's condition (R103): `a >= 0` by the spec's decision. -/
def condition44 (a : Word) : Bool :=
  match Config.cond44 with
  | .nonneg => decide (0 ≤ sint a)
  | .nonzero => decide (a ≠ 0)
  | .positive => decide (0 < sint a)

/-- `dl(A, R) = sint(A) * 2^19 + uint(R[18:0])` (R13), of which R[19] = 0 is asked by 62, 66 and 67 (R118). -/
def doubleLength (a r : Word) : Result Int :=
  if r.getLsbD 19 then .error (.refused .doubleLengthMalformed)
  else .ok (sint a * 2 ^ 19 + (addr19 r : Int))

/-- The inverse of `dl` (R13): `A <- word(floor(V / 2^19)); R <- V mod 2^19`. -/
def State.setDouble (v : Int) (s : State) : State :=
  { s with a := word (v / 2 ^ 19), r := word (v % 2 ^ 19) }

end Sys2Proof.Machine
end

