-- ==== Sys2Proof/Machine/Arith.lean ====
section
/-!
DEFINITION. The operations that the arithmetic, load and store functions of Groups 0 to 3 and 5 share (spec/40_groups_0_1.md
R62, spec/41_groups_2_3.md R80, spec/43_group_5.md R108), and the integer calculations of Group 6 (spec/44_group_6.md). Operands
are read as integers, the exact result is formed, and it is cut to a word at the end (log 18).
-/

namespace Sys2Proof.Machine

/-- The three registers an instruction's rule may name. -/
inductive Reg
  | a
  | b
  | r
deriving DecidableEq, Repr

/-- The contents of a register. -/
def State.get (s : State) : Reg → Word
  | .a => s.a
  | .b => s.b
  | .r => s.r

/-- The state with a register replaced. -/
def State.put (g : Reg) (v : Word) (s : State) : State :=
  match g with
  | .a => { s with a := v }
  | .b => { s with b := v }
  | .r => { s with r := v }

/-- `register + operand`. -/
def plus (x y : Int) : Int := x + y

/-- `register - operand`; the x5 functions too, whose formulas are followed and not their English (spec/90_conflicts.md C2). -/
def minus (x y : Int) : Int := x - y

/-- `operand - register`. -/
def reverse (x y : Int) : Int := y - x

/-- x0, x1, x2: the register receives the result, OV by the group's rule (R62, R80). -/
def toRegister (g : Reg) (flag : Bool → State → State) (op : Int → Int → Int) (operand : Fields → State → Result Word)
    (f : Fields) (s : State) : Result State := do
  let v ← operand f s
  let t := op (sint (s.get g)) (sint v)
  .ok (flag (outOfRange t) (s.put g (word t)))

/-- x3: the register receives the operand; no flag (R66, R74, R84, R92). -/
def loadReg (g : Reg) (operand : Fields → State → Result Word) (f : Fields) (s : State) : Result State := do
  let v ← operand f s
  .ok (s.put g v)

/-- x4, x5, x6: the location receives the result, one read and one write of the same place, OV by the group's rule; the
register is unchanged (R62, R80, R35). -/
def toStore (g : Reg) (flag : Bool → State → State) (op : Int → Int → Int) (loc : Fields → State → Result Place)
    (f : Fields) (s : State) : Result State := do
  let p ← loc f s
  let v ← s.read p
  let t := op (sint (s.get g)) (sint v)
  let u ← s.write p (word t)
  .ok (flag (outOfRange t) u)

/-- x7: the location receives the register; no flag (R70, R78, R88, R96, R116). -/
def storeReg (g : Reg) (loc : Fields → State → Result Place) (f : Fields) (s : State) : Result State := do
  let p ← loc f s
  s.write p (s.get g)

/-- 54, 55: the location's word is counted by one unit of the least significant bit (R113, R114). -/
def countStore (step : Int) (loc : Fields → State → Result Place) (f : Fields) (s : State) : Result State := do
  let p ← loc f s
  let v ← s.read p
  let t := sint v + step
  let u ← s.write p (word t)
  .ok (u.drawOv (outOfRange t))

/-- `-2^38 <= t <= 2^38 - 1`, the range of a double-length number (R13, R122). -/
def fitsDouble (t : Int) : Bool := decide (-2 ^ 38 ≤ t) && decide (t ≤ 2 ^ 38 - 1)

/-- The integer square root by binary digits: the largest number that agrees with `root` above bit `n` and whose square is at
most `x`. -/
def sqrtDigits (x : Nat) : Nat → Nat → Nat
  | 0, root => root
  | n + 1, root =>
    if (root + 2 ^ n) * (root + 2 ^ n) ≤ x then sqrtDigits x n (root + 2 ^ n) else sqrtDigits x n root

/-- `floor(sqrt(x))` for x below 2^38 (R123, `SQRT_ROUND = floor`; log 14). -/
def floorSqrt (x : Nat) : Nat := sqrtDigits x 19 0

/-- The single-length part of a product (R125): the more significant half, cut as `MUL65_ROUND` says (log 13). -/
def singleLength (v : Int) : Int :=
  match Config.mul65Round with
  | .truncate => v / 2 ^ 19
  | .roundHalf => (v + 2 ^ 18) / 2 ^ 19

/-- The second quotient R126 allows for an inexact division: one away from the truncated one, further from zero. -/
def awayQuotient (v d : Int) : Int := if 0 < v * d then v.tdiv d + 1 else v.tdiv d - 1

/-- An inexact division whose second quotient is also a 20-bit fraction: R126 leaves a choice. -/
def divisionOpen (v d : Int) : Bool :=
  decide (v.tmod d ≠ 0) && decide (-2 ^ 19 ≤ awayQuotient v d) && decide (awayQuotient v d ≤ 2 ^ 19 - 1)

/-- The quotient of R126: the exact one, or one of the two integers next to V / d, which of them being a draw (parameter
`DIV_CONVENTION`; log 10). -/
def drawQuotient (v d : Int) (s : State) : Int :=
  if divisionOpen v d && Config.divDraw s.draws then awayQuotient v d else v.tdiv d

/-- The draw of a division is used up when there was a choice. -/
def State.countDivision (v d : Int) (s : State) : State := if divisionOpen v d then { s with draws := s.draws + 1 } else s

/-- The quotient of 66 and 67, or the reason there is none (R126). -/
def divide (v d : Int) (s : State) : Result Int :=
  if d = 0 then .error (.refused .divideByZero)
  else if |d| * 2 ^ 19 ≤ |v| then .error (.refused .quotientOverflow)
  else .ok (drawQuotient v d s)

end Sys2Proof.Machine
end

