-- ==== Sys2Proof/Machine/Group4.lean ====
section
/-!
DEFINITION. Group 4, functions 40 to 47: transfer of control (spec/42_group_4.md R97 to R106). A jump that is not taken leaves S at the
next instruction (R98); the range check is made only when it is taken (R97).
-/

namespace Sys2Proof.Machine

/-- A jump to the place M and Nm name, taken when `taken` holds (R97, R98). -/
def jumpIf (taken : State → Bool) (f : Fields) (s : State) : Result State :=
  if taken s then s.jump (directPlace f s) else .ok s

/-- 40 and 41: when B is not 0, B is counted and the jump taken, both or neither; the target was formed from the old B (R99,
R100). -/
def countAndJump (step : Int) (f : Fields) (s : State) : Result State :=
  if s.b = 0 then .ok s
  else do
    let t ← s.jump (directPlace f s)
    .ok (({ t with b := word (sint s.b + step) } : State).drawOv (outOfRange (sint s.b + step)))

/-- 43: B receives the image of the advanced S, then the jump is taken; the target was formed from the old B, and a target out
of range writes nothing (R102). -/
def enterSubroutine (f : Fields) (s : State) : Result State := do
  let t ← s.jump (directPlace f s)
  .ok { t with b := imageOf s.seq }

/-- 47: when OV is set, the target is checked, OV cleared and the jump taken (R106). -/
def jumpOnOverflow (f : Fields) (s : State) : Result State :=
  if s.ov then do
    let t ← s.jump (directPlace f s)
    .ok { t with ov := false }
  else .ok s

/-- 40: jump if B is not zero, and count B up (R99). -/
def execJumpIncB40 (f : Fields) (s : State) : Host.Outcome State Fault Refusal :=
  obey f s (countAndJump 1 f)

/-- 41: jump if B is not zero, and count B down (R100). -/
def execJumpDecB41 (f : Fields) (s : State) : Host.Outcome State Fault Refusal :=
  obey f s (countAndJump (-1) f)

/-- 42: jump if B is zero (R101). -/
def execJumpBZero42 (f : Fields) (s : State) : Host.Outcome State Fault Refusal :=
  obey f s (jumpIf (fun t => decide (t.b = 0)) f)

/-- 43: subroutine entry (R102). -/
def execSubEntry43 (f : Fields) (s : State) : Host.Outcome State Fault Refusal :=
  obey f s (enterSubroutine f)

/-- 44: jump if the accumulator is positive or zero, the reading `COND44` decides; log 11 (R103). -/
def execJumpAGeZero44 (f : Fields) (s : State) : Host.Outcome State Fault Refusal :=
  obey f s (jumpIf (fun t => condition44 t.a) f)

/-- 45: jump if the accumulator is negative (R104). -/
def execJumpALtZero45 (f : Fields) (s : State) : Host.Outcome State Fault Refusal :=
  obey f s (jumpIf (fun t => decide (sint t.a < 0)) f)

/-- 46: jump if the accumulator is zero (R105). -/
def execJumpAZero46 (f : Fields) (s : State) : Host.Outcome State Fault Refusal :=
  obey f s (jumpIf (fun t => decide (t.a = 0)) f)

/-- 47: jump if overflow, and clear OV (R106). -/
def execJumpOverflow47 (f : Fields) (s : State) : Host.Outcome State Fault Refusal :=
  obey f s (jumpOnOverflow f)

end Sys2Proof.Machine
end

