-- ==== Sys2Proof/Machine/Group5.lean ====
section
/-!
DEFINITION. Group 5, functions 50 to 57: jumps, logical AND, the register R and store counting (spec/43_group_5.md R107 to R116).
-/

namespace Sys2Proof.Machine

/-- 50 and 51: the jump to a target, checked as every taken jump is (R109, R110). -/
def jumpTo (target : Fields → State → Result Place) (f : Fields) (s : State) : Result State := do
  let p ← target f s
  s.jump p

/-- 52: A receives the AND of A and the operand, bit by bit (R111). -/
def andToA (loc : Fields → State → Result Place) (f : Fields) (s : State) : Result State := do
  let v ← operandAt loc f s
  .ok (s.put .a (s.a &&& v))

/-- 56: the location receives the AND of A and its word (R115). -/
def andToStore (loc : Fields → State → Result Place) (f : Fields) (s : State) : Result State := do
  let p ← loc f s
  let v ← s.read p
  s.write p (s.a &&& v)

/-- 50: absolute unconditional jump; log 12 (R109). -/
def execJumpAbs50 (f : Fields) (s : State) : Host.Outcome State Fault Refusal :=
  obey f s (jumpTo target50 f)

/-- 51: relative branch, backwards from the next instruction; log 12 (R110). -/
def execJumpRel51 (f : Fields) (s : State) : Host.Outcome State Fault Refusal :=
  obey f s (jumpTo target51 f)

/-- 52: `A <- A & (loc)` (R111). -/
def execAndA52 (f : Fields) (s : State) : Host.Outcome State Fault Refusal :=
  obey f s (andToA direct f)

/-- 53: `R <- (loc)`, all 20 bits (R112). -/
def execLoadR53 (f : Fields) (s : State) : Host.Outcome State Fault Refusal :=
  obey f s (loadReg .r (operandAt direct) f)

/-- 54: `(loc) <- (loc) + 1` (R113). -/
def execIncStore54 (f : Fields) (s : State) : Host.Outcome State Fault Refusal :=
  obey f s (countStore 1 direct f)

/-- 55: `(loc) <- (loc) - 1` (R114). -/
def execDecStore55 (f : Fields) (s : State) : Host.Outcome State Fault Refusal :=
  obey f s (countStore (-1) direct f)

/-- 56: `(loc) <- A & (loc)` (R115). -/
def execAndStore56 (f : Fields) (s : State) : Host.Outcome State Fault Refusal :=
  obey f s (andToStore direct f)

/-- 57: `(loc) <- R` (R116). -/
def execStoreR57 (f : Fields) (s : State) : Host.Outcome State Fault Refusal :=
  obey f s (storeReg .r direct f)

end Sys2Proof.Machine
end

