-- ==== Sys2Proof/Machine/Group6.lean ====
section
/-!
DEFINITION. Group 6, functions 60 to 67: shifts, square root, multiplication and division (spec/44_group_6.md R117 to R127). OV is
unchanged by every one of them (R119; log 31); a result that cannot be represented has no next state (log 24, log 37).
-/

namespace Sys2Proof.Machine

/-- 60: zeros enter at bit 0, bits leaving bit 19 are lost (R120). -/
def shiftA (f : Fields) (s : State) : Result State := do
  let c ← shiftCount f s
  .ok { s with a := word ((uint s.a : Int) * 2 ^ c) }

/-- 61: the shift as a multiplication, defined when the result fits a word (R121). -/
def shiftAArith (f : Fields) (s : State) : Result State := do
  let c ← shiftCount f s
  let t := sint s.a * 2 ^ c
  if outOfRange t then .error (.refused .arithShiftOverflow) else .ok { s with a := word t }

/-- 62: the same on the double-length accumulator (R122). -/
def shiftAR (f : Fields) (s : State) : Result State := do
  let c ← shiftCount f s
  let v ← doubleLength s.a s.r
  if fitsDouble (v * 2 ^ c) then .ok (s.setDouble (v * 2 ^ c)) else .error (.refused .arithShiftOverflow)

/-- 63: `A <- floor(sqrt(X * 2^19))` for X = A + operand in 0 to 2^19 - 1; R is unchanged (R123). -/
def rootOfSum (loc : Fields → State → Result Place) (f : Fields) (s : State) : Result State := do
  let m ← operandAt loc f s
  let x := sint s.a + sint m
  if x < 0 ∨ 2 ^ 19 - 1 < x then .error (.refused .sqrtDomain)
  else .ok { s with a := word (floorSqrt (x.toNat * 2 ^ 19)) }

/-- The exact product of A and an operand, which has no representation for -1 times -1 (R124). -/
def product (loc : Fields → State → Result Place) (f : Fields) (s : State) : Result Int := do
  let m ← operandAt loc f s
  if sint s.a * sint m = 2 ^ 38 then .error (.refused .multiplyOverflow) else .ok (sint s.a * sint m)

/-- 64: the product fills {A,R}, R[19] = 0 (R124). -/
def multiplyDouble (loc : Fields → State → Result Place) (f : Fields) (s : State) : Result State := do
  let v ← product loc f s
  .ok (s.setDouble v)

/-- 65: A receives the product cut to single length, R is cleared (R125). -/
def multiplySingle (loc : Fields → State → Result Place) (f : Fields) (s : State) : Result State := do
  let v ← product loc f s
  .ok { s with a := word (singleLength v), r := 0 }

/-- 66: R receives the quotient, A the remainder in units of 2^-38 (R126). -/
def divideDouble (loc : Fields → State → Result Place) (f : Fields) (s : State) : Result State := do
  let d ← operandAt loc f s
  let v ← doubleLength s.a s.r
  let q ← divide v (sint d) s
  .ok (({ s with r := word q, a := word (v - q * sint d) } : State).countDivision v (sint d))

/-- 67: A receives the quotient, R is cleared, no remainder is kept (R127). -/
def divideSingle (loc : Fields → State → Result Place) (f : Fields) (s : State) : Result State := do
  let d ← operandAt loc f s
  let v ← doubleLength s.a s.r
  let q ← divide v (sint d) s
  .ok (({ s with a := word q, r := 0 } : State).countDivision v (sint d))

/-- 60: logical shift left of A (R120). -/
def execShiftLogical60 (f : Fields) (s : State) : Host.Outcome State Fault Refusal :=
  obey f s (shiftA f)

/-- 61: arithmetical shift left of A (R121). -/
def execShiftArith61 (f : Fields) (s : State) : Host.Outcome State Fault Refusal :=
  obey f s (shiftAArith f)

/-- 62: double-length arithmetical shift of A and R (R122). -/
def execShiftDouble62 (f : Fields) (s : State) : Host.Outcome State Fault Refusal :=
  obey f s (shiftAR f)

/-- 63: square root (R123). -/
def execSquareRoot63 (f : Fields) (s : State) : Host.Outcome State Fault Refusal :=
  obey f s (rootOfSum direct f)

/-- 64: multiply, double-length (R124). -/
def execMulDouble64 (f : Fields) (s : State) : Host.Outcome State Fault Refusal :=
  obey f s (multiplyDouble direct f)

/-- 65: multiply single-length; R cleared (R125). -/
def execMulSingle65 (f : Fields) (s : State) : Host.Outcome State Fault Refusal :=
  obey f s (multiplySingle direct f)

/-- 66: divide double-length (R126). -/
def execDivDouble66 (f : Fields) (s : State) : Host.Outcome State Fault Refusal :=
  obey f s (divideDouble direct f)

/-- 67: divide single-length; R cleared (R127). -/
def execDivSingle67 (f : Fields) (s : State) : Host.Outcome State Fault Refusal :=
  obey f s (divideSingle direct f)

end Sys2Proof.Machine
end

