-- ==== Sys2Proof/Machine/Group7.lean ====
section
/-!
DEFINITION. Group 7, functions 70 to 77: input and output, the programmed Program Break, dynamic stops (spec/45_group_7.md R128 to
R139, spec/60_exceptions.md R142, R151).
-/

namespace Sys2Proof.Machine

/-- 70 and 73: the device checks, then the transfer or `hold` (R130, R143), then A receives what `use` makes of T. -/
def inputWith (use : Word → State → State) (f : Fields) (s : State) : Host.Outcome State Fault Refusal :=
  match deviceNumber f s.advance with
  | .error e => e.outcome
  | .ok d =>
    match s.advance.input d with
    | none => hold s
    | some (t, u) => .next { use t u with lock := f.l }

/-- 77: the device checks, then the transfer or `hold` (R130, R138). -/
def outputA (f : Fields) (s : State) : Host.Outcome State Fault Refusal :=
  match deviceNumber f s.advance with
  | .error e => e.outcome
  | .ok d =>
    match s.advance.output d with
    | none => hold s
    | some u => .next { u with lock := f.l }

/-- `A <- A + T`, OV drawn on overflow (R131). -/
def addInput (t : Word) (s : State) : State :=
  ({ s with a := word (sint s.a + sint t) } : State).drawOv (outOfRange (sint s.a + sint t))

/-- `A <- T` (R134). -/
def readInput (t : Word) (s : State) : State := { s with a := t }

/-- 76: S receives the place named, the current level's stimulus is cleared, and the Program Break is performed at once,
whatever LOCK and L are (R137, R151; log 28). -/
def breakTo (f : Fields) (s : State) : Result State := do
  let t ← s.jump (directPlace f s)
  .ok t.clearOwnStimulus.programBreak

/-- 70: add data from input device N (R131). -/
def execInputAdd70 (f : Fields) (s : State) : Host.Outcome State Fault Refusal :=
  inputWith addInput f s

/-- 71: dynamic stop (R132). -/
def execStop71 (f : Fields) (s : State) : Host.Outcome State Fault Refusal :=
  dynamicStop f s

/-- 72: dynamic stop (R133). -/
def execStop72 (f : Fields) (s : State) : Host.Outcome State Fault Refusal :=
  dynamicStop f s

/-- 73: read data from input device N (R134). -/
def execInputRead73 (f : Fields) (s : State) : Host.Outcome State Fault Refusal :=
  inputWith readInput f s

/-- 74: "no details have yet come to light"; `Unspecified(Function74)`, always (R135). -/
def execAutoControl74 (_ : Fields) (_ : State) : Host.Outcome State Fault Refusal := .refused .function74

/-- 75: dynamic stop (R136). -/
def execStop75 (f : Fields) (s : State) : Host.Outcome State Fault Refusal :=
  dynamicStop f s

/-- 76: Program Break, to be re-entered at the place named (R137). -/
def execProgramBreak76 (f : Fields) (s : State) : Host.Outcome State Fault Refusal :=
  obey f s (breakTo f)

/-- 77: write A to output device N (R138). -/
def execOutput77 (f : Fields) (s : State) : Host.Outcome State Fault Refusal :=
  outputA f s

end Sys2Proof.Machine
end

