-- ==== Sys2Proof/Machine/Groups01.lean ====
section
/-!
DEFINITION. Groups 0 and 1, functions 00 to 17: arithmetic on B and A with a literal or a main-store word (spec/40_groups_0_1.md
R61 to R78; the M = 1 cells are the spec's rebuilt ones, log 36).
-/

namespace Sys2Proof.Machine

/-! ## Group 0: the B register -/

/-- 00, ADD B: `B <- B + v` (R63). -/
def execAddB00 (f : Fields) (s : State) : Host.Outcome State Fault Refusal :=
  obey f s (toRegister .b State.drawOv plus literalOrMain f)

/-- 01, SUBTRACT B: `B <- B - v` (R64). -/
def execSubB01 (f : Fields) (s : State) : Host.Outcome State Fault Refusal :=
  obey f s (toRegister .b State.drawOv minus literalOrMain f)

/-- 02, REVERSE SUBTRACT B: `B <- v - B` (R65). -/
def execRevB02 (f : Fields) (s : State) : Host.Outcome State Fault Refusal :=
  obey f s (toRegister .b State.drawOv reverse literalOrMain f)

/-- 03, LOAD B: `B <- v` (R66). -/
def execLoadB03 (f : Fields) (s : State) : Host.Outcome State Fault Refusal :=
  obey f s (loadReg .b literalOrMain f)

/-- 04, ADD B to store: `(loc) <- B + (loc)` (R67). -/
def execAddBToStore04 (f : Fields) (s : State) : Host.Outcome State Fault Refusal :=
  obey f s (toStore .b State.drawOv plus mainOnly f)

/-- 05, SUBTRACT B from store: `(loc) <- B - (loc)` (R68). -/
def execSubBFromStore05 (f : Fields) (s : State) : Host.Outcome State Fault Refusal :=
  obey f s (toStore .b State.drawOv minus mainOnly f)

/-- 06, REVERSE SUBTRACT B from store: `(loc) <- (loc) - B` (R69). -/
def execRevBFromStore06 (f : Fields) (s : State) : Host.Outcome State Fault Refusal :=
  obey f s (toStore .b State.drawOv reverse mainOnly f)

/-- 07, STORE B: `(loc) <- B` (R70). -/
def execStoreB07 (f : Fields) (s : State) : Host.Outcome State Fault Refusal :=
  obey f s (storeReg .b mainOnly f)

/-! ## Group 1: the accumulator -/

/-- 10, ADD A: `A <- A + v` (R71). -/
def execAddA10 (f : Fields) (s : State) : Host.Outcome State Fault Refusal :=
  obey f s (toRegister .a State.drawOv plus literalOrMain f)

/-- 11, SUBTRACT A: `A <- A - v` (R72). -/
def execSubA11 (f : Fields) (s : State) : Host.Outcome State Fault Refusal :=
  obey f s (toRegister .a State.drawOv minus literalOrMain f)

/-- 12, REVERSE SUBTRACT A: `A <- v - A` (R73). -/
def execRevA12 (f : Fields) (s : State) : Host.Outcome State Fault Refusal :=
  obey f s (toRegister .a State.drawOv reverse literalOrMain f)

/-- 13, LOAD A: `A <- v` (R74). -/
def execLoadA13 (f : Fields) (s : State) : Host.Outcome State Fault Refusal :=
  obey f s (loadReg .a literalOrMain f)

/-- 14, ADD A to store: `(loc) <- A + (loc)` (R75). -/
def execAddAToStore14 (f : Fields) (s : State) : Host.Outcome State Fault Refusal :=
  obey f s (toStore .a State.drawOv plus mainOnly f)

/-- 15, SUBTRACT A from store: `(loc) <- A - (loc)` (R76). -/
def execSubAFromStore15 (f : Fields) (s : State) : Host.Outcome State Fault Refusal :=
  obey f s (toStore .a State.drawOv minus mainOnly f)

/-- 16, REVERSE SUBTRACT A from store: `(loc) <- (loc) - A` (R77). -/
def execRevAFromStore16 (f : Fields) (s : State) : Host.Outcome State Fault Refusal :=
  obey f s (toStore .a State.drawOv reverse mainOnly f)

/-- 17, STORE A: `(loc) <- A` (R78). -/
def execStoreA17 (f : Fields) (s : State) : Host.Outcome State Fault Refusal :=
  obey f s (storeReg .a mainOnly f)

end Sys2Proof.Machine
end

