-- ==== Sys2Proof/Machine/Groups23.lean ====
section
/-!
DEFINITION. Groups 2 and 3, functions 20 to 37: the same operations with a fast-store word or a main-store word reached through a
pointer in the fast store (spec/41_groups_2_3.md R79 to R96). Group 3 sets OV on overflow.
-/

namespace Sys2Proof.Machine

/-! ## Group 2: the B register -/

/-- 20, ADD B: `B <- B + v` (R81). -/
def execAddB20 (f : Fields) (s : State) : Host.Outcome State Fault Refusal :=
  obey f s (toRegister .b State.drawOv plus (operandAt fastOrIndirect) f)

/-- 21, SUBTRACT B: `B <- B - v` (R82). -/
def execSubB21 (f : Fields) (s : State) : Host.Outcome State Fault Refusal :=
  obey f s (toRegister .b State.drawOv minus (operandAt fastOrIndirect) f)

/-- 22, REVERSE SUBTRACT B: `B <- v - B` (R83). -/
def execRevB22 (f : Fields) (s : State) : Host.Outcome State Fault Refusal :=
  obey f s (toRegister .b State.drawOv reverse (operandAt fastOrIndirect) f)

/-- 23, LOAD B: `B <- v` (R84). -/
def execLoadB23 (f : Fields) (s : State) : Host.Outcome State Fault Refusal :=
  obey f s (loadReg .b (operandAt fastOrIndirect) f)

/-- 24, ADD B to store: `(loc) <- B + (loc)` (R85). -/
def execAddBToStore24 (f : Fields) (s : State) : Host.Outcome State Fault Refusal :=
  obey f s (toStore .b State.drawOv plus fastOrIndirect f)

/-- 25, SUBTRACT B from store: `(loc) <- B - (loc)` (R86). -/
def execSubBFromStore25 (f : Fields) (s : State) : Host.Outcome State Fault Refusal :=
  obey f s (toStore .b State.drawOv minus fastOrIndirect f)

/-- 26, REVERSE SUBTRACT B from store: `(loc) <- (loc) - B` (R87). -/
def execRevBFromStore26 (f : Fields) (s : State) : Host.Outcome State Fault Refusal :=
  obey f s (toStore .b State.drawOv reverse fastOrIndirect f)

/-- 27, STORE B: `(loc) <- B` (R88). -/
def execStoreB27 (f : Fields) (s : State) : Host.Outcome State Fault Refusal :=
  obey f s (storeReg .b fastOrIndirect f)

/-! ## Group 3: the accumulator -/

/-- 30, ADD A: `A <- A + v` (R89). -/
def execAddA30 (f : Fields) (s : State) : Host.Outcome State Fault Refusal :=
  obey f s (toRegister .a State.setOv plus (operandAt fastOrIndirect) f)

/-- 31, SUBTRACT A: `A <- A - v` (R90). -/
def execSubA31 (f : Fields) (s : State) : Host.Outcome State Fault Refusal :=
  obey f s (toRegister .a State.setOv minus (operandAt fastOrIndirect) f)

/-- 32, REVERSE SUBTRACT A: `A <- v - A` (R91). -/
def execRevA32 (f : Fields) (s : State) : Host.Outcome State Fault Refusal :=
  obey f s (toRegister .a State.setOv reverse (operandAt fastOrIndirect) f)

/-- 33, LOAD A: `A <- v` (R92). -/
def execLoadA33 (f : Fields) (s : State) : Host.Outcome State Fault Refusal :=
  obey f s (loadReg .a (operandAt fastOrIndirect) f)

/-- 34, ADD A to store: `(loc) <- A + (loc)` (R93). -/
def execAddAToStore34 (f : Fields) (s : State) : Host.Outcome State Fault Refusal :=
  obey f s (toStore .a State.setOv plus fastOrIndirect f)

/-- 35, SUBTRACT A from store: `(loc) <- A - (loc)` (R94). -/
def execSubAFromStore35 (f : Fields) (s : State) : Host.Outcome State Fault Refusal :=
  obey f s (toStore .a State.setOv minus fastOrIndirect f)

/-- 36, REVERSE SUBTRACT A from store: `(loc) <- (loc) - A` (R95). -/
def execRevAFromStore36 (f : Fields) (s : State) : Host.Outcome State Fault Refusal :=
  obey f s (toStore .a State.setOv reverse fastOrIndirect f)

/-- 37, STORE A: `(loc) <- A` (R96). -/
def execStoreA37 (f : Fields) (s : State) : Host.Outcome State Fault Refusal :=
  obey f s (storeReg .a fastOrIndirect f)

end Sys2Proof.Machine
end

