-- ==== Sys2Proof/Machine/Dispatch.lean ====
section
/-!
DEFINITION. What obeying an instruction does: one arm per constructor of Instr, one direct call of its meaning.
-/

namespace Sys2Proof.Machine

def exec (i : Instr) (s : State) : Host.Outcome State Fault Refusal :=
  match i with
  | .addB00 f => Sys2Proof.Machine.execAddB00 f s
  | .subB01 f => Sys2Proof.Machine.execSubB01 f s
  | .revB02 f => Sys2Proof.Machine.execRevB02 f s
  | .loadB03 f => Sys2Proof.Machine.execLoadB03 f s
  | .addBToStore04 f => Sys2Proof.Machine.execAddBToStore04 f s
  | .subBFromStore05 f => Sys2Proof.Machine.execSubBFromStore05 f s
  | .revBFromStore06 f => Sys2Proof.Machine.execRevBFromStore06 f s
  | .storeB07 f => Sys2Proof.Machine.execStoreB07 f s
  | .addA10 f => Sys2Proof.Machine.execAddA10 f s
  | .subA11 f => Sys2Proof.Machine.execSubA11 f s
  | .revA12 f => Sys2Proof.Machine.execRevA12 f s
  | .loadA13 f => Sys2Proof.Machine.execLoadA13 f s
  | .addAToStore14 f => Sys2Proof.Machine.execAddAToStore14 f s
  | .subAFromStore15 f => Sys2Proof.Machine.execSubAFromStore15 f s
  | .revAFromStore16 f => Sys2Proof.Machine.execRevAFromStore16 f s
  | .storeA17 f => Sys2Proof.Machine.execStoreA17 f s
  | .addB20 f => Sys2Proof.Machine.execAddB20 f s
  | .subB21 f => Sys2Proof.Machine.execSubB21 f s
  | .revB22 f => Sys2Proof.Machine.execRevB22 f s
  | .loadB23 f => Sys2Proof.Machine.execLoadB23 f s
  | .addBToStore24 f => Sys2Proof.Machine.execAddBToStore24 f s
  | .subBFromStore25 f => Sys2Proof.Machine.execSubBFromStore25 f s
  | .revBFromStore26 f => Sys2Proof.Machine.execRevBFromStore26 f s
  | .storeB27 f => Sys2Proof.Machine.execStoreB27 f s
  | .addA30 f => Sys2Proof.Machine.execAddA30 f s
  | .subA31 f => Sys2Proof.Machine.execSubA31 f s
  | .revA32 f => Sys2Proof.Machine.execRevA32 f s
  | .loadA33 f => Sys2Proof.Machine.execLoadA33 f s
  | .addAToStore34 f => Sys2Proof.Machine.execAddAToStore34 f s
  | .subAFromStore35 f => Sys2Proof.Machine.execSubAFromStore35 f s
  | .revAFromStore36 f => Sys2Proof.Machine.execRevAFromStore36 f s
  | .storeA37 f => Sys2Proof.Machine.execStoreA37 f s
  | .jumpIncB40 f => Sys2Proof.Machine.execJumpIncB40 f s
  | .jumpDecB41 f => Sys2Proof.Machine.execJumpDecB41 f s
  | .jumpBZero42 f => Sys2Proof.Machine.execJumpBZero42 f s
  | .subEntry43 f => Sys2Proof.Machine.execSubEntry43 f s
  | .jumpAGeZero44 f => Sys2Proof.Machine.execJumpAGeZero44 f s
  | .jumpALtZero45 f => Sys2Proof.Machine.execJumpALtZero45 f s
  | .jumpAZero46 f => Sys2Proof.Machine.execJumpAZero46 f s
  | .jumpOverflow47 f => Sys2Proof.Machine.execJumpOverflow47 f s
  | .jumpAbs50 f => Sys2Proof.Machine.execJumpAbs50 f s
  | .jumpRel51 f => Sys2Proof.Machine.execJumpRel51 f s
  | .andA52 f => Sys2Proof.Machine.execAndA52 f s
  | .loadR53 f => Sys2Proof.Machine.execLoadR53 f s
  | .incStore54 f => Sys2Proof.Machine.execIncStore54 f s
  | .decStore55 f => Sys2Proof.Machine.execDecStore55 f s
  | .andStore56 f => Sys2Proof.Machine.execAndStore56 f s
  | .storeR57 f => Sys2Proof.Machine.execStoreR57 f s
  | .shiftLogical60 f => Sys2Proof.Machine.execShiftLogical60 f s
  | .shiftArith61 f => Sys2Proof.Machine.execShiftArith61 f s
  | .shiftDouble62 f => Sys2Proof.Machine.execShiftDouble62 f s
  | .squareRoot63 f => Sys2Proof.Machine.execSquareRoot63 f s
  | .mulDouble64 f => Sys2Proof.Machine.execMulDouble64 f s
  | .mulSingle65 f => Sys2Proof.Machine.execMulSingle65 f s
  | .divDouble66 f => Sys2Proof.Machine.execDivDouble66 f s
  | .divSingle67 f => Sys2Proof.Machine.execDivSingle67 f s
  | .inputAdd70 f => Sys2Proof.Machine.execInputAdd70 f s
  | .stop71 f => Sys2Proof.Machine.execStop71 f s
  | .stop72 f => Sys2Proof.Machine.execStop72 f s
  | .inputRead73 f => Sys2Proof.Machine.execInputRead73 f s
  | .autoControl74 f => Sys2Proof.Machine.execAutoControl74 f s
  | .stop75 f => Sys2Proof.Machine.execStop75 f s
  | .programBreak76 f => Sys2Proof.Machine.execProgramBreak76 f s
  | .output77 f => Sys2Proof.Machine.execOutput77 f s

end Sys2Proof.Machine
end

