-- ==== Sys2Proof/Machine/Step.lean ====
section
/-!
DEFINITION. One step of the processor, the instruction cycle of spec/30_encoding.md R60, and the placing of a word where it will
be fetched.
-/

namespace Sys2Proof.Machine

/-- One step (R60): the environment's events and the break test, then, unless the processor idles (R152), the fetch of the word
at S and the obeying of the instruction it holds. A break and the first instruction of the level entered are one step (log
40). -/
def step (s : State) : Host.Outcome State Fault Refusal :=
  if s.boundary.idle then .next s.boundary
  else
    match s.boundary.fetch with
    | .ok w => exec (decode w) s.boundary
    | .error e => e.outcome

/-- The state with a word stored where the next step fetches. Where the next step would idle and fetch nothing, the idling is
ended and the lock keeps the current level (log 2). -/
def State.withFetchWord (s : State) (nbits w : Nat) : State :=
  if s.boundary.idle then
    ({ s with idle := false, lock := true } : State).poke s.seq (BitVec.ofNat 20 (w % 2 ^ nbits))
  else s.poke s.boundary.seq (BitVec.ofNat 20 (w % 2 ^ nbits))

end Sys2Proof.Machine
end

