-- ==== Sys2Proof/Safety.lean ====
section
/-!
DEFINITION. What counts as a good state and a safe run, and the words the statements use.
-/

namespace Sys2Proof.Machine

/-- Every address of a store is below its size. -/
def Memory.below (m : Memory) (n : Nat) : Bool := m.all fun c => decide (c.1 < n)

/-- A place S may hold: an address of its store, or the one just past its last word, to which stepping may lead (R16). -/
abbrev State.reachable (s : State) (p : Place) : Prop := p.addr ≤ s.size p.store

/-- The machine's invariant: both stores are in canonical form and within their sizes, the sizes are from 1 to 2^19 words (R3,
D6), and S and every re-entry address name a place of their store or the one past its end (R16, R97). -/
abbrev State.Inv (s : State) : Prop :=
  s.fast.wf = true ∧ s.main.wf = true ∧
  s.fast.below s.params.fastWords = true ∧ s.main.below s.params.mainWords = true ∧
  (1 ≤ s.params.fastWords ∧ s.params.fastWords ≤ 2 ^ 19) ∧ (1 ≤ s.params.mainWords ∧ s.params.mainWords ≤ 2 ^ 19) ∧
  s.reachable s.seq ∧ ∀ l : Level, s.reachable (s.reentry.get l)

/-- An event of the environment that writes the stores. -/
def EnvEvent.isTransfer : EnvEvent → Bool
  | .transfer _ => true
  | _ => false

/-- An event of the environment that changes the PCR. -/
def EnvEvent.isPcrChange : EnvEvent → Bool
  | .pcrChange _ => true
  | _ => false

/-- No autonomous transfer is in progress: none of its words is still to come. A transfer is set in progress by a 74 only, which
has no meaning (R135), so with none in progress there are none at all (R155). -/
abbrev State.NoTransfers (s : State) : Prop := ∀ events ∈ s.env, ∀ e ∈ events, e.isTransfer = false

/-- What R162 asks of a launch state, the state the model starts from, since the source gives no reset (R161): S and the re-entry
addresses of the other levels in range, LOCK = 0, the processor not idling, the current level the best runnable one, so that
no break is due, and no autonomous transfer in progress (R155, D26). No register, indicator, store word or entry address has a value of its own (R26, R161, R163); that the stores
are canonical and within their sizes is the model's invariant. -/
abbrev State.Launch (s : State) : Prop :=
  s.Inv ∧ s.inRange s.seq = true ∧ (∀ l : Level, l ≠ s.cur → s.inRange (s.reentry.get l) = true) ∧
  s.lock = false ∧ s.idle = false ∧ s.best = some s.cur ∧ s.NoTransfers

/-- A run of k steps from s meets no fault and no refusal. -/
def SafeFor : Nat → State → Prop
  | 0, _ => True
  | k + 1, s => ∃ t, step s = .next t ∧ SafeFor k t

/-- The quiet environment (R149): nothing happens at the next boundary or later, the processor does not idle, and no break is
due. -/
abbrev State.Quiet (s : State) : Prop := s.env = [] ∧ s.idle = false ∧ s.breakDue = false

/-- The place holds a word: it is in range and has a value. -/
abbrev State.Holds (s : State) (p : Place) (w : Word) : Prop := s.inRange p = true ∧ s.peek p = some w

/-- The state an instruction at S leaves when it completes without a jump and changes nothing else: S is at the next word, LOCK
is the instruction's L (R8, R16, R145). -/
def State.passed (s : State) (f : Fields) : State := { s with seq := nextPlace s.seq, lock := f.l }

/-- The state an instruction leaves when it jumps to a place and changes nothing else. -/
def State.jumped (s : State) (f : Fields) (p : Place) : State := { s with seq := p, lock := f.l }

/-- No store word differs between two states. -/
def SameStores (s t : State) : Prop := ∀ q, t.peek q = s.peek q

/-- One place has received a word, and no other store word differs. -/
def StoredOnly (s t : State) (p : Place) (w : Word) : Prop := t.peek p = some w ∧ ∀ q, q ≠ p → t.peek q = s.peek q

/-- The instructions whose rule writes A (R10). -/
def writesA (i : Instr) : Bool :=
  [0o10, 0o11, 0o12, 0o13, 0o30, 0o31, 0o32, 0o33, 0o52, 0o60, 0o61, 0o62, 0o63, 0o64, 0o65, 0o66, 0o67, 0o70,
    0o73].contains i.code.toNat

/-- The instructions whose rule writes B (R11). -/
def writesB (i : Instr) : Bool :=
  [0o00, 0o01, 0o02, 0o03, 0o20, 0o21, 0o22, 0o23, 0o40, 0o41, 0o43].contains i.code.toNat

/-- The instructions whose rule writes R (R12). -/
def writesR (i : Instr) : Bool := [0o53, 0o62, 0o64, 0o65, 0o66, 0o67].contains i.code.toNat

/-- The instructions whose rule writes a store word (R35). -/
def writesStore (i : Instr) : Bool :=
  [0o04, 0o05, 0o06, 0o07, 0o14, 0o15, 0o16, 0o17, 0o24, 0o25, 0o26, 0o27, 0o34, 0o35, 0o36, 0o37, 0o54, 0o55, 0o56,
    0o57].contains i.code.toNat

/-- The instructions whose rule may set or clear OV (R17, R62, R80). -/
def touchesOv (i : Instr) : Bool :=
  [0o00, 0o01, 0o02, 0o04, 0o05, 0o06, 0o10, 0o11, 0o12, 0o14, 0o15, 0o16, 0o20, 0o21, 0o22, 0o24, 0o25, 0o26, 0o30, 0o31,
    0o32, 0o34, 0o35, 0o36, 0o40, 0o41, 0o47, 0o54, 0o55, 0o70].contains i.code.toNat

end Sys2Proof.Machine
end

