-- ==== Sys2Proof/Certificates/Slice0/Obligations.lean ====
section
/-!
DEFINITION. The statements for the provers. Each docstring names the rules of spec/ it formalises and, where it rests on a
decision of the spec or of the model, says so with the log entry. Every clause that something is unchanged follows the frame
rule R8, the spec's reading of its source (D12, log 38).
-/

open Sys2Proof Sys2Proof.Machine

/-! ## Encoding (R45, R46, R54) -/

/-- The encoder's word of an instruction decodes to that instruction: no bit of L, M, F, K or N is dropped (R46, R54). -/
def Obligations.DecodeReadsBackEveryEncodedInstruction : Prop := ∀ i : Instr, decode (encode i) = i

/-- A word is the sum of its five fields at the places R46 gives them (the spec's own bit numbering, D1; log 15). -/
def Obligations.WordIsTheSumOfItsFields : Prop :=
  ∀ w : Word,
    w.toNat = (decode w).fields.l.toNat * 2 ^ 19 + (decode w).fields.m.toNat * 2 ^ 18 + (decode w).code.toNat * 2 ^ 12 +
      (decode w).fields.k.bits.toNat * 2 ^ 10 + (decode w).fields.n.toNat

/-- The words E1 to E6 of spec/95_test_vectors.md decode to the instructions written beside them. -/
def Obligations.SampleWordsDecodeAsWritten : Prop :=
  decode 0x00000#20 = .addB00 ⟨false, false, .unmodified, 0⟩ ∧
  decode 0xFFFFF#20 = .output77 ⟨true, true, .byS, 1023⟩ ∧
  decode 0x5B040#20 = .loadA33 ⟨false, true, .unmodified, 64⟩ ∧
  decode 0x88800#20 = .addA10 ⟨true, false, .byA, 0⟩ ∧
  decode 0x64C03#20 = .jumpAGeZero44 ⟨false, true, .byS, 3⟩ ∧
  decode 0x3E028#20 = .programBreak76 ⟨false, false, .unmodified, 40⟩

/-! ## The machine as a whole -/

/-- Every step keeps the invariant: canonical stores within sizes of 1 to 2^19 words, and S and every re-entry address at a
place of their store or one past its end (R3, R16, R31, R97). -/
def Obligations.EveryStepKeepsTheInvariant : Prop := ∀ s t : State, s.Inv → step s = .next t → t.Inv

/-- The launch state meets the invariant; its lock is 0, it does not idle and its current level is the best runnable one, so
that no break is due, and no transfer is in progress (R162). The other launch values are the model's choice (log 1, 2, 3). It is one of the launch states
R162 allows, which give no value to A, B, R, OV or a store word and no entry address but one in range: from every one of them
the first instruction obeyed in the quiet environment is the word at S (R26, R161, R162, R163). -/
def Obligations.LaunchStateIsReadyToRun : Prop :=
  (State.reset.Launch ∧
    (∀ (s : State) (a b r : Word) (ov : Bool) (p : Place), s.Launch → s.inRange p = true →
      ({ s with a := a, b := b, r := r, ov := ov, seq := p } : State).Launch) ∧
    (∀ (s : State) (p : Place) (w : Word), s.Launch → s.inRange p = true → (s.poke p w).Launch) ∧
    ∀ (s : State) (w : Word), s.Launch → s.env = [] → s.Holds s.seq w → step s = exec (decode w) s) ∧
  State.reset.Inv ∧ State.reset.lock = false ∧ State.reset.idle = false ∧
  State.reset.runnable State.reset.cur = true ∧ State.reset.best = some State.reset.cur ∧ State.reset.Quiet

/-- One step obeys the instruction that the word at S decodes to, on the state the boundary leaves; in the quiet environment
the boundary leaves the state as it is (R60). -/
def Obligations.StepRunsTheDecodedInstruction : Prop :=
  (∀ (s : State) (w : Word), s.boundary.idle = false → s.boundary.Holds s.boundary.seq w →
    step s = exec (decode w) s.boundary) ∧
  ∀ (s : State) (w : Word), s.Quiet → s.Holds s.seq w → step s = exec (decode w) s

/-- A fetch past the end of the store stops: S does not wrap to 0 and does not cross into the other store (R16). Beyond the
place stepping leads to, the reason is the other one (log 25); a word with no value stops too (R26, log 4). -/
def Obligations.FetchStopsWhereThereIsNoWord : Prop :=
  ∀ s : State, s.boundary.idle = false →
    (s.boundary.seq.addr = s.boundary.size s.boundary.seq.store → step s = .fault .sequenceOverrun) ∧
    (s.boundary.size s.boundary.seq.store < s.boundary.seq.addr → step s = .fault .addressOutOfRange) ∧
    (s.boundary.inRange s.boundary.seq = true → s.boundary.peek s.boundary.seq = none → step s = .fault .unwrittenWord)

/-- What an instruction that completes leaves in LOCK is its own L; the only other outcome with a next state is a hold of 70,
73 or 77, which changes nothing (R130, R145). -/
def Obligations.CompletedInstructionSetsLockToL : Prop :=
  ∀ (i : Instr) (s t : State), exec i s = .next t → t.lock = i.fields.l ∨ (t = s ∧ i.namesDevice = true)

/-- OV is sticky: an instruction that finds OV set and leaves it clear is a 47 (R17, R169). -/
def Obligations.OnlyFunction47ClearsOv : Prop :=
  ∀ (i : Instr) (s t : State), exec i s = .next t → s.ov = true → t.ov = false → ∃ f, i = .jumpOverflow47 f

/-- The registers, OV and the words of the stores change only under the instructions whose rules write them (R8, R10, R11,
R12, R17, R35). That what a rule does not write keeps its value is the spec's reading, D12, log 38; that 60 to 67 keep OV is
its decision D34, log 31 (R119). -/
def Obligations.InstructionsChangeOnlyWhatTheirRulesWrite : Prop :=
  ∀ (i : Instr) (s t : State), exec i s = .next t →
    (writesA i = false → t.a = s.a) ∧ (writesB i = false → t.b = s.b) ∧ (writesR i = false → t.r = s.r) ∧
    (touchesOv i = false → t.ov = s.ov) ∧ (writesStore i = false → SameStores s t)

/-- No instruction changes the console switches, Busy, the environment or the parameters; only 76 changes stimuli, levels,
re-entry addresses or idling; only 77 the PCR and the output; only 70 and 73 the input (R137, R139, R146, R147; frame rule
D12, log 38). That a 77 to the PCR sets no stimulus is the model's choice: R144 leaves it open (log 8). -/
def Obligations.InstructionsLeaveTheProgrammeLevelsAlone : Prop :=
  ∀ (i : Instr) (s t : State), exec i s = .next t →
    (t.switch = s.switch ∧ t.busy = s.busy ∧ t.env = s.env ∧ t.params = s.params) ∧
    (i.code ≠ 0o76 → t.stim = s.stim ∧ t.cur = s.cur ∧ t.reentry = s.reentry ∧ t.idle = s.idle) ∧
    (i.code ≠ 0o77 → t.pcr = s.pcr ∧ t.outputs = s.outputs) ∧
    (i.code ≠ 0o70 → i.code ≠ 0o73 → t.inputs = s.inputs)

/-! ## The stores, modification and operands (R26 to R33, R37) -/

/-- A word written is read back, and every other word reads as before (R37). -/
def Obligations.ReadReturnsTheLastWordWritten : Prop :=
  ∀ (s t : State) (p : Place) (v : Word), s.write p v = .ok t →
    t.read p = .ok v ∧ ∀ q, q ≠ p → t.read q = s.read q

/-- A read, a write or a jump at or beyond the size of the store has no meaning (R31); a word in range that nothing has given a
value has none to read (R26; that this is a fault is the model's choice, log 4). -/
def Obligations.AccessesOutsideTheStoreStop : Prop :=
  ∀ (s : State) (p : Place) (v : Word),
    (s.size p.store ≤ p.addr →
      s.read p = .error (.fault .addressOutOfRange) ∧ s.write p v = .error (.fault .addressOutOfRange) ∧
      s.jump p = .error (.fault .addressOutOfRange)) ∧
    (p.addr < s.size p.store → s.peek p = none → s.read p = .error (.fault .unwrittenWord))

/-- The modified N is N plus the register K selects, modulo 2^20 (R29; that modification adds is the spec's general
knowledge, D3, log 16). The image of S is its store bit and its address (R15; D4, log 17). -/
def Obligations.ModificationAddsTheSelectedRegister : Prop :=
  ∀ (s : State) (f : Fields),
    (f.k = .unmodified → (s.modifiedN f).toNat = f.n.toNat) ∧
    (f.k = .byB → (s.modifiedN f).toNat = (f.n.toNat + s.b.toNat) % 2 ^ 20) ∧
    (f.k = .byA → (s.modifiedN f).toNat = (f.n.toNat + s.a.toNat) % 2 ^ 20) ∧
    (f.k = .byS → s.seq.addr < 2 ^ 19 →
      (s.modifiedN f).toNat = (f.n.toNat + ((if s.seq.store = .main then 2 ^ 19 else 0) + s.seq.addr)) % 2 ^ 20)

/-- The places and values operands stand for, an address being bits 18:0 of a word (R30): the literal of Groups 0 and 1 is
the modified N, their main-store word is the one at the modified N (R52, R62); in Groups 2 and 3 the fast-store word is the
operand when M = 0 and the pointer to a main-store word when M = 1 (R33, R80); a jump target and an operand of Groups 4 to 6
is in the store M names (R97, R108, R118). That the address is bits 18:0 of the modified N and of the pointer, bit 19 being
dropped, is the spec's decision, D5, log 17. -/
def Obligations.IndirectOperandsGoThroughTheFastStore : Prop :=
  ∀ (s : State) (f : Fields),
    (mainPlace f s = ⟨.main, (s.modifiedN f).toNat % 2 ^ 19⟩ ∧ fastPlace f s = ⟨.fast, (s.modifiedN f).toNat % 2 ^ 19⟩ ∧
      directPlace f s = ⟨if f.m = true then .main else .fast, (s.modifiedN f).toNat % 2 ^ 19⟩) ∧
    (f.m = false →
      literalOrMain f s = .ok (s.modifiedN f) ∧ fastOrIndirect f s = .ok ⟨.fast, (s.modifiedN f).toNat % 2 ^ 19⟩) ∧
    (f.m = true →
      mainOnly f s = .ok ⟨.main, (s.modifiedN f).toNat % 2 ^ 19⟩ ∧
      (∀ w : Word, literalOrMain f s = .ok w ↔ s.Holds ⟨.main, (s.modifiedN f).toNat % 2 ^ 19⟩ w) ∧
      ∀ w : Word, s.Holds ⟨.fast, (s.modifiedN f).toNat % 2 ^ 19⟩ w →
        fastOrIndirect f s = .ok ⟨.main, w.toNat % 2 ^ 19⟩)

/-- Where an operand has no word to be read, because its place or its pointer's place is beyond the store or has no value, every
function that reads it stops with the reason the read gives (R31, R80, R108, R118; log 4). -/
def Obligations.OperandsWithoutAWordStop : Prop :=
  ∀ (f : Fields) (s : State) (e : Stop),
    (∀ i ∈ [Instr.addB00 f, .subB01 f, .revB02 f, .loadB03 f, .addBToStore04 f, .subBFromStore05 f, .revBFromStore06 f, .addA10 f,
        .subA11 f, .revA12 f, .loadA13 f, .addAToStore14 f, .subAFromStore15 f, .revAFromStore16 f],
      f.m = true → s.read (mainPlace f s.advance) = .error e → exec i s = e.outcome) ∧
    (∀ i ∈ [Instr.addB20 f, .subB21 f, .revB22 f, .loadB23 f, .addBToStore24 f, .subBFromStore25 f, .revBFromStore26 f,
        .addA30 f, .subA31 f, .revA32 f, .loadA33 f, .addAToStore34 f, .subAFromStore35 f, .revAFromStore36 f],
      (s.read (fastPlace f s.advance) = .error e → exec i s = e.outcome) ∧
      ∀ p, fastOrIndirect f s.advance = .ok p → s.read p = .error e → exec i s = e.outcome) ∧
    (∀ i ∈ [Instr.storeB27 f, .storeA37 f], f.m = true → s.read (fastPlace f s.advance) = .error e → exec i s = e.outcome) ∧
    ∀ i ∈ [Instr.andA52 f, .loadR53 f, .incStore54 f, .decStore55 f, .andStore56 f, .squareRoot63 f, .mulDouble64 f, .mulSingle65 f,
        .divDouble66 f, .divSingle67 f],
      s.read (directPlace f s.advance) = .error e → exec i s = e.outcome

/-- The double-length accumulator: a number in range put into {A,R} leaves R[19] = 0 and reads back as itself (R13; the
layout is D14, log 39). -/
def Obligations.DoubleLengthNumbersReadBack : Prop :=
  ∀ (s : State) (v : Int), -2 ^ 38 ≤ v → v < 2 ^ 38 →
    (s.setDouble v).r.getLsbD 19 = false ∧ doubleLength (s.setDouble v).a (s.setDouble v).r = .ok v

/-! ## Groups 0 and 1 (R62 to R78) -/

/-- 00 to 03: B receives B plus, minus, reverse minus or just the operand, a literal or a main-store word; OV is drawn on
overflow (a free value, log 9); only S, LOCK, B and OV change; an operand address out of range has no meaning (R62 to R66;
the wrapped result is D2, log 18; the M = 1 cells of 01 to 03 are rebuilt, log 36). -/
def Obligations.Group0ResultsInB : Prop :=
  ∀ (f : Fields) (s : State),
    (∀ v, literalOrMain f s.advance = .ok v →
      exec (.addB00 f) s = .next
        (({ s.passed f with b := word (sint s.b + sint v) } : State).drawOv (outOfRange (sint s.b + sint v))) ∧
      exec (.subB01 f) s = .next
        (({ s.passed f with b := word (sint s.b - sint v) } : State).drawOv (outOfRange (sint s.b - sint v))) ∧
      exec (.revB02 f) s = .next
        (({ s.passed f with b := word (sint v - sint s.b) } : State).drawOv (outOfRange (sint v - sint s.b))) ∧
      exec (.loadB03 f) s = .next { s.passed f with b := v }) ∧
    (f.m = true → s.inRange (mainPlace f s.advance) = false →
      exec (.addB00 f) s = .fault .addressOutOfRange ∧ exec (.subB01 f) s = .fault .addressOutOfRange ∧
      exec (.revB02 f) s = .fault .addressOutOfRange ∧ exec (.loadB03 f) s = .fault .addressOutOfRange)

/-- 10 to 13: the same for A (R62, R71 to R74; D2, D9, log 9, log 18; the M = 1 cells are rebuilt, log 36). -/
def Obligations.Group1ResultsInA : Prop :=
  ∀ (f : Fields) (s : State),
    (∀ v, literalOrMain f s.advance = .ok v →
      exec (.addA10 f) s = .next
        (({ s.passed f with a := word (sint s.a + sint v) } : State).drawOv (outOfRange (sint s.a + sint v))) ∧
      exec (.subA11 f) s = .next
        (({ s.passed f with a := word (sint s.a - sint v) } : State).drawOv (outOfRange (sint s.a - sint v))) ∧
      exec (.revA12 f) s = .next
        (({ s.passed f with a := word (sint v - sint s.a) } : State).drawOv (outOfRange (sint v - sint s.a))) ∧
      exec (.loadA13 f) s = .next { s.passed f with a := v }) ∧
    (f.m = true → s.inRange (mainPlace f s.advance) = false →
      exec (.addA10 f) s = .fault .addressOutOfRange ∧ exec (.subA11 f) s = .fault .addressOutOfRange ∧
      exec (.revA12 f) s = .fault .addressOutOfRange ∧ exec (.loadA13 f) s = .fault .addressOutOfRange)

/-- 04 to 07: the main-store word at the modified N receives B plus it, B minus it, it minus B, or B; no other store word and
no register changes; OV is drawn on overflow (R67 to R70; C2, D2, D9, log 9, 18, 36). -/
def Obligations.Group0ResultsInStore : Prop :=
  ∀ (f : Fields) (s : State) (p : Place), mainOnly f s.advance = .ok p →
    (∀ v, s.Holds p v →
      (exec (.addBToStore04 f) s = .next
        (((s.poke p (word (sint s.b + sint v))).passed f).drawOv (outOfRange (sint s.b + sint v))) ∧
        StoredOnly s (((s.poke p (word (sint s.b + sint v))).passed f).drawOv (outOfRange (sint s.b + sint v))) p
          (word (sint s.b + sint v))) ∧
      (exec (.subBFromStore05 f) s = .next
        (((s.poke p (word (sint s.b - sint v))).passed f).drawOv (outOfRange (sint s.b - sint v))) ∧
        StoredOnly s (((s.poke p (word (sint s.b - sint v))).passed f).drawOv (outOfRange (sint s.b - sint v))) p
          (word (sint s.b - sint v))) ∧
      (exec (.revBFromStore06 f) s = .next
        (((s.poke p (word (sint v - sint s.b))).passed f).drawOv (outOfRange (sint v - sint s.b))) ∧
        StoredOnly s (((s.poke p (word (sint v - sint s.b))).passed f).drawOv (outOfRange (sint v - sint s.b))) p
          (word (sint v - sint s.b)))) ∧
    (s.inRange p = true →
      exec (.storeB07 f) s = .next ((s.poke p s.b).passed f) ∧ StoredOnly s ((s.poke p s.b).passed f) p s.b)

/-- 14 to 17: the same for A (R75 to R78; C2, D2, D9, log 9, 18, 36). -/
def Obligations.Group1ResultsInStore : Prop :=
  ∀ (f : Fields) (s : State) (p : Place), mainOnly f s.advance = .ok p →
    (∀ v, s.Holds p v →
      (exec (.addAToStore14 f) s = .next
        (((s.poke p (word (sint s.a + sint v))).passed f).drawOv (outOfRange (sint s.a + sint v))) ∧
        StoredOnly s (((s.poke p (word (sint s.a + sint v))).passed f).drawOv (outOfRange (sint s.a + sint v))) p
          (word (sint s.a + sint v))) ∧
      (exec (.subAFromStore15 f) s = .next
        (((s.poke p (word (sint s.a - sint v))).passed f).drawOv (outOfRange (sint s.a - sint v))) ∧
        StoredOnly s (((s.poke p (word (sint s.a - sint v))).passed f).drawOv (outOfRange (sint s.a - sint v))) p
          (word (sint s.a - sint v))) ∧
      (exec (.revAFromStore16 f) s = .next
        (((s.poke p (word (sint v - sint s.a))).passed f).drawOv (outOfRange (sint v - sint s.a))) ∧
        StoredOnly s (((s.poke p (word (sint v - sint s.a))).passed f).drawOv (outOfRange (sint v - sint s.a))) p
          (word (sint v - sint s.a)))) ∧
    (s.inRange p = true →
      exec (.storeA17 f) s = .next ((s.poke p s.a).passed f) ∧ StoredOnly s ((s.poke p s.a).passed f) p s.a)

/-- 04 to 07 and 14 to 17 with M = 0 have no entry and no meaning; with M = 1 an address out of range has none (R31, R56, D8).
-/
def Obligations.StoreFunctionsOfGroups01WithoutAPlaceStop : Prop :=
  ∀ (i : Instr) (s : State), i.needsM1 = true →
    (i.fields.m = false → exec i s = .refused .noEntryM0) ∧
    (i.fields.m = true → s.inRange (mainPlace i.fields s.advance) = false → exec i s = .fault .addressOutOfRange)

/-! ## Groups 2 and 3 (R80 to R96) -/

/-- 20 to 22: B receives B plus, minus or reverse minus a fast-store or indirect main-store word; OV is drawn on overflow;
23: B receives the word (R80 to R84; D2, D9, log 9, log 18; the M = 1 cells are rebuilt, log 36). -/
def Obligations.Group2ResultsInB : Prop :=
  ∀ (f : Fields) (s : State) (p : Place) (v : Word), fastOrIndirect f s.advance = .ok p → s.Holds p v →
    exec (.addB20 f) s = .next
      (({ s.passed f with b := word (sint s.b + sint v) } : State).drawOv (outOfRange (sint s.b + sint v))) ∧
    exec (.subB21 f) s = .next
      (({ s.passed f with b := word (sint s.b - sint v) } : State).drawOv (outOfRange (sint s.b - sint v))) ∧
    exec (.revB22 f) s = .next
      (({ s.passed f with b := word (sint v - sint s.b) } : State).drawOv (outOfRange (sint v - sint s.b))) ∧
    exec (.loadB23 f) s = .next { s.passed f with b := v }

/-- 30 to 32: A receives A plus, minus or reverse minus the word, and OV is set exactly when it was set or the true result
is outside -1 to 1 - 2^-19 (R80, R89 to R91; the wrapped result is D2, log 18; the M = 1 cells of 30 and 31 are rebuilt, log
36). -/
def Obligations.Group3ResultsInASetOv : Prop :=
  ∀ (f : Fields) (s : State) (p : Place) (v : Word), fastOrIndirect f s.advance = .ok p → s.Holds p v →
    exec (.addA30 f) s = .next
      { s.passed f with a := word (sint s.a + sint v), ov := s.ov || outOfRange (sint s.a + sint v) } ∧
    exec (.subA31 f) s = .next
      { s.passed f with a := word (sint s.a - sint v), ov := s.ov || outOfRange (sint s.a - sint v) } ∧
    exec (.revA32 f) s = .next
      { s.passed f with a := word (sint v - sint s.a), ov := s.ov || outOfRange (sint v - sint s.a) }

/-- 33: A receives the word; 37: the location receives A and no other store word changes; no flag changes; where a store address
is out of range the step has no meaning (R92, R96 with the exceptions of R80). The words with F = 33
and F = 37 decode to them. -/
def Obligations.Functions33And37MoveAWord : Prop :=
  ∀ (f : Fields) (s : State),
    (∀ p, fastOrIndirect f s.advance = .ok p →
      (∀ v, s.Holds p v → exec (.loadA33 f) s = .next { s.passed f with a := v }) ∧
      (s.inRange p = true →
        exec (.storeA37 f) s = .next ((s.poke p s.a).passed f) ∧ StoredOnly s ((s.poke p s.a).passed f) p s.a) ∧
      (s.inRange p = false →
        exec (.loadA33 f) s = .fault .addressOutOfRange ∧ exec (.storeA37 f) s = .fault .addressOutOfRange)) ∧
    (s.inRange (fastPlace f s.advance) = false →
      exec (.loadA33 f) s = .fault .addressOutOfRange ∧ exec (.storeA37 f) s = .fault .addressOutOfRange) ∧
    ∀ w : Word, (fieldF w = 0o33 → decode w = .loadA33 (fieldsOf w)) ∧ (fieldF w = 0o37 → decode w = .storeA37 (fieldsOf w))

/-- 24 to 27: the location receives B plus it, B minus it, it minus B, or B; OV is drawn on overflow (R85 to R88; C2, D2,
D9, log 9, log 18; the M = 1 cells are rebuilt, log 36). 27 to a place out of range, or through a pointer at one, has no
meaning (the exceptions of R80; R31). -/
def Obligations.Group2ResultsInStore : Prop :=
  ∀ (f : Fields) (s : State),
    (s.inRange (fastPlace f s.advance) = false → exec (.storeB27 f) s = .fault .addressOutOfRange) ∧
    ∀ p : Place, fastOrIndirect f s.advance = .ok p →
    (∀ v, s.Holds p v →
      (exec (.addBToStore24 f) s = .next
        (((s.poke p (word (sint s.b + sint v))).passed f).drawOv (outOfRange (sint s.b + sint v))) ∧
        StoredOnly s (((s.poke p (word (sint s.b + sint v))).passed f).drawOv (outOfRange (sint s.b + sint v))) p
          (word (sint s.b + sint v))) ∧
      (exec (.subBFromStore25 f) s = .next
        (((s.poke p (word (sint s.b - sint v))).passed f).drawOv (outOfRange (sint s.b - sint v))) ∧
        StoredOnly s (((s.poke p (word (sint s.b - sint v))).passed f).drawOv (outOfRange (sint s.b - sint v))) p
          (word (sint s.b - sint v))) ∧
      (exec (.revBFromStore26 f) s = .next
        (((s.poke p (word (sint v - sint s.b))).passed f).drawOv (outOfRange (sint v - sint s.b))) ∧
        StoredOnly s (((s.poke p (word (sint v - sint s.b))).passed f).drawOv (outOfRange (sint v - sint s.b))) p
          (word (sint v - sint s.b)))) ∧
    (s.inRange p = true →
      exec (.storeB27 f) s = .next ((s.poke p s.b).passed f) ∧ StoredOnly s ((s.poke p s.b).passed f) p s.b) ∧
    (s.inRange p = false → exec (.storeB27 f) s = .fault .addressOutOfRange)

/-- 34 to 36: the location receives A plus it, A minus it or it minus A, and OV is set exactly when it was set or the true
result is out of range (R80, R93 to R95; C2, log 36; D2, log 18). -/
def Obligations.Group3ResultsInStoreSetOv : Prop :=
  ∀ (f : Fields) (s : State) (p : Place) (v : Word), fastOrIndirect f s.advance = .ok p → s.Holds p v →
    (exec (.addAToStore34 f) s = .next (((s.poke p (word (sint s.a + sint v))).passed f).setOv (outOfRange (sint s.a + sint v))) ∧
      StoredOnly s (((s.poke p (word (sint s.a + sint v))).passed f).setOv (outOfRange (sint s.a + sint v))) p
        (word (sint s.a + sint v))) ∧
    (exec (.subAFromStore35 f) s = .next
      (((s.poke p (word (sint s.a - sint v))).passed f).setOv (outOfRange (sint s.a - sint v))) ∧
      StoredOnly s (((s.poke p (word (sint s.a - sint v))).passed f).setOv (outOfRange (sint s.a - sint v))) p
        (word (sint s.a - sint v))) ∧
    (exec (.revAFromStore36 f) s = .next
      (((s.poke p (word (sint v - sint s.a))).passed f).setOv (outOfRange (sint v - sint s.a))) ∧
      StoredOnly s (((s.poke p (word (sint v - sint s.a))).passed f).setOv (outOfRange (sint v - sint s.a))) p
        (word (sint v - sint s.a)))

/-- A draw of OV: with no overflow nothing changes; with overflow OV ends as it was or as 1, and nothing but OV and the model's
own count of draws changes (R62, parameter OV_SCOPE). -/
def Obligations.DrawnOvIsOldOvOrOne : Prop :=
  ∀ s : State, s.drawOv false = s ∧
    ∃ o : Bool, (o = s.ov ∨ o = true) ∧ s.drawOv true = { s with ov := o, draws := s.draws + 1 }

/-! ## Group 4 (R97 to R106) -/

/-- 40 and 41: when B is not 0, B is counted by one unit and the jump taken, both or neither; when B is 0 nothing happens; a
taken jump out of range has no meaning. The target is formed from the old B (R97 to R100; D2, D9, D33, log 9, log 18, log
30). -/
def Obligations.CountingJumpsCountAndJumpTogether : Prop :=
  ∀ (f : Fields) (s : State),
    (s.b ≠ 0 → s.inRange (directPlace f s.advance) = true →
      exec (.jumpIncB40 f) s = .next
        (({ s.jumped f (directPlace f s.advance) with b := word (sint s.b + 1) } : State).drawOv
          (outOfRange (sint s.b + 1))) ∧
      exec (.jumpDecB41 f) s = .next
        (({ s.jumped f (directPlace f s.advance) with b := word (sint s.b - 1) } : State).drawOv
          (outOfRange (sint s.b - 1)))) ∧
    (s.b = 0 → exec (.jumpIncB40 f) s = .next (s.passed f) ∧ exec (.jumpDecB41 f) s = .next (s.passed f)) ∧
    (s.b ≠ 0 → s.inRange (directPlace f s.advance) = false →
      exec (.jumpIncB40 f) s = .fault .addressOutOfRange ∧ exec (.jumpDecB41 f) s = .fault .addressOutOfRange)

/-- 43: B receives the image of the place of the next instruction and the jump is taken to the place formed from the old B; a
target out of range writes nothing (R102; D4, log 17). -/
def Obligations.Function43LinksAndJumps : Prop :=
  ∀ (f : Fields) (s : State),
    (s.inRange (directPlace f s.advance) = true →
      exec (.subEntry43 f) s = .next { s.jumped f (directPlace f s.advance) with b := imageOf (nextPlace s.seq) }) ∧
    (s.inRange (directPlace f s.advance) = false → exec (.subEntry43 f) s = .fault .addressOutOfRange)

/-- 44: a jump exactly when A is positive or zero, that is A[19] = 0 (R103: the spec's reading of a damaged sign, COND44, D10,
log 11); out of range when taken, no meaning. -/
def Obligations.Function44JumpsOnNonNegativeA : Prop :=
  ∀ (f : Fields) (s : State),
    (s.a.getLsbD 19 = false → s.inRange (directPlace f s.advance) = true →
      exec (.jumpAGeZero44 f) s = .next (s.jumped f (directPlace f s.advance))) ∧
    (s.a.getLsbD 19 = true → exec (.jumpAGeZero44 f) s = .next (s.passed f)) ∧
    (s.a.getLsbD 19 = false → s.inRange (directPlace f s.advance) = false →
      exec (.jumpAGeZero44 f) s = .fault .addressOutOfRange)

/-- 42, 45 and 46: a jump exactly when B is 0, when A is negative (A[19] = 1), when A is 0; nothing else changed; out of range
when taken, no meaning (R101, R104, R105 with the exceptions of R99). The words with F = 42, 45 and 46
decode to them. -/
def Obligations.Functions42And45And46JumpOnTheirConditions : Prop :=
  ∀ (f : Fields) (s : State),
    (s.inRange (directPlace f s.advance) = true →
      (s.b = 0 → exec (.jumpBZero42 f) s = .next (s.jumped f (directPlace f s.advance))) ∧
      (s.a.getLsbD 19 = true → exec (.jumpALtZero45 f) s = .next (s.jumped f (directPlace f s.advance))) ∧
      (s.a = 0 → exec (.jumpAZero46 f) s = .next (s.jumped f (directPlace f s.advance)))) ∧
    (s.b ≠ 0 → exec (.jumpBZero42 f) s = .next (s.passed f)) ∧
    (s.a.getLsbD 19 = false → exec (.jumpALtZero45 f) s = .next (s.passed f)) ∧
    (s.a ≠ 0 → exec (.jumpAZero46 f) s = .next (s.passed f)) ∧
    (s.inRange (directPlace f s.advance) = false →
      (s.b = 0 → exec (.jumpBZero42 f) s = .fault .addressOutOfRange) ∧
      (s.a.getLsbD 19 = true → exec (.jumpALtZero45 f) s = .fault .addressOutOfRange) ∧
      (s.a = 0 → exec (.jumpAZero46 f) s = .fault .addressOutOfRange)) ∧
    ∀ w : Word, (fieldF w = 0o42 → decode w = .jumpBZero42 (fieldsOf w)) ∧
      (fieldF w = 0o45 → decode w = .jumpALtZero45 (fieldsOf w)) ∧ (fieldF w = 0o46 → decode w = .jumpAZero46 (fieldsOf w))

/-- 47: when OV is 1 it is cleared and the jump taken; when it is 0 nothing happens; a target out of range leaves OV (the step
has no meaning) (R106). -/
def Obligations.Function47ClearsOvAndJumps : Prop :=
  ∀ (f : Fields) (s : State),
    (s.ov = true → s.inRange (directPlace f s.advance) = true →
      exec (.jumpOverflow47 f) s = .next { s.jumped f (directPlace f s.advance) with ov := false }) ∧
    (s.ov = false → exec (.jumpOverflow47 f) s = .next (s.passed f)) ∧
    (s.ov = true → s.inRange (directPlace f s.advance) = false → exec (.jumpOverflow47 f) s = .fault .addressOutOfRange)

/-- A jump `50 0,B` whose M names the caller's store, obeyed when B holds the link of a 43, goes to the word after the 43
(R102, the return it gives). It rests on the direct reading of 50, the spec's choice JUMP5X (D11, log 12), on modification
by addition (D3, log 16) and on the image of S (D4, log 17). -/
def Obligations.JumpByTheLinkReturnsToTheCaller : Prop :=
  ∀ (f g : Fields) (s t u : State), s.seq.addr + 1 < 2 ^ 19 → exec (.subEntry43 f) s = .next t →
    g.k = .byB → g.n = 0 → g.m = decide (s.seq.store = .main) → u.b = t.b → u.inRange (nextPlace s.seq) = true →
    exec (.jumpAbs50 g) u = .next (u.jumped g (nextPlace s.seq))

/-! ## Group 5 (R107 to R116) -/

/-- 50: S receives the place named, and nothing else changes; 51: S receives the place the modified N back from the next
instruction, modulo 2^19; out of range, no meaning (R109, R110; the direct reading is D11, log 12). -/
def Obligations.UnconditionalJumpsGoWhereTheyName : Prop :=
  ∀ (f : Fields) (s : State),
    (s.inRange (directPlace f s.advance) = true →
      exec (.jumpAbs50 f) s = .next (s.jumped f (directPlace f s.advance))) ∧
    (s.inRange (directPlace f s.advance) = false → exec (.jumpAbs50 f) s = .fault .addressOutOfRange) ∧
    ∀ t : Nat, t < 2 ^ 19 → ((s.seq.addr + 1 : Int) - (s.advance.modifiedN f).toNat - t) % 2 ^ 19 = 0 →
      (s.inRange ⟨storeOf f.m, t⟩ = true → exec (.jumpRel51 f) s = .next (s.jumped f ⟨storeOf f.m, t⟩)) ∧
      (s.inRange ⟨storeOf f.m, t⟩ = false → exec (.jumpRel51 f) s = .fault .addressOutOfRange)

/-- In the quiet environment, not idling and with the current level the best runnable one, a 51 with N = 1 and K = 0 that
names its own store is an endless loop: for every number of steps it stays where it is and changes nothing but LOCK (R110;
the direct reading of 51 is the spec's choice JUMP5X, D11, C4, log 12). -/
def Obligations.SelfJumpRunsForEver : Prop :=
  ∀ (s : State) (f : Fields) (k : Nat), s.env = [] → s.idle = false → s.best = some s.cur → s.seq.addr < 2 ^ 19 →
    s.Holds s.seq (encode (.jumpRel51 f)) → f.k = .unmodified → f.n = 1 → storeOf f.m = s.seq.store →
    Sys2Proof.core.run (k + 1) s = .next { s with lock := f.l }

/-- 52: A receives the AND of A and the word, bit by bit; 53: R receives all 20 bits of the word; no flag changes; out of
range, no meaning (R111, R112 with the exceptions of R108; that 52 with M = 1 writes A, where the table prints S, is C5, log
36). The words with F = 52 and 53 decode to them. -/
def Obligations.Functions52And53FillARegister : Prop :=
  ∀ (f : Fields) (s : State),
    (∀ v, s.Holds (directPlace f s.advance) v →
      exec (.andA52 f) s = .next { s.passed f with a := s.a &&& v } ∧
      (∀ n < 20, (s.a &&& v).getLsbD n = (s.a.getLsbD n && v.getLsbD n)) ∧
      exec (.loadR53 f) s = .next { s.passed f with r := v }) ∧
    (s.inRange (directPlace f s.advance) = false →
      exec (.andA52 f) s = .fault .addressOutOfRange ∧ exec (.loadR53 f) s = .fault .addressOutOfRange) ∧
    ∀ w : Word, (fieldF w = 0o52 → decode w = .andA52 (fieldsOf w)) ∧ (fieldF w = 0o53 → decode w = .loadR53 (fieldsOf w))

/-- 54 and 55: the word is counted up or down by one unit, no register changes, OV is drawn on overflow, no other store word
changes (R113, R114; D2, D9, D33, log 9, log 18, log 30). -/
def Obligations.CountingAStoreWord : Prop :=
  ∀ (f : Fields) (s : State) (v : Word), s.Holds (directPlace f s.advance) v →
    (exec (.incStore54 f) s = .next
      (((s.poke (directPlace f s.advance) (word (sint v + 1))).passed f).drawOv (outOfRange (sint v + 1))) ∧
      StoredOnly s (((s.poke (directPlace f s.advance) (word (sint v + 1))).passed f).drawOv (outOfRange (sint v + 1)))
        (directPlace f s.advance) (word (sint v + 1))) ∧
    (exec (.decStore55 f) s = .next
      (((s.poke (directPlace f s.advance) (word (sint v - 1))).passed f).drawOv (outOfRange (sint v - 1))) ∧
      StoredOnly s (((s.poke (directPlace f s.advance) (word (sint v - 1))).passed f).drawOv (outOfRange (sint v - 1)))
        (directPlace f s.advance) (word (sint v - 1)))

/-- 56 and 57: the word receives its AND with A, or all 20 bits of R; no register and no flag changes, no other store word
changes; out of range, no meaning (R115, R116 with the exceptions of R108). The words with F = 56 and 57
decode to them. -/
def Obligations.Functions56And57WriteTheStore : Prop :=
  ∀ (f : Fields) (s : State),
    (∀ v, s.Holds (directPlace f s.advance) v →
      exec (.andStore56 f) s = .next ((s.poke (directPlace f s.advance) (s.a &&& v)).passed f) ∧
      StoredOnly s ((s.poke (directPlace f s.advance) (s.a &&& v)).passed f) (directPlace f s.advance) (s.a &&& v)) ∧
    (s.inRange (directPlace f s.advance) = true →
      exec (.storeR57 f) s = .next ((s.poke (directPlace f s.advance) s.r).passed f) ∧
      StoredOnly s ((s.poke (directPlace f s.advance) s.r).passed f) (directPlace f s.advance) s.r) ∧
    (s.inRange (directPlace f s.advance) = false →
      exec (.andStore56 f) s = .fault .addressOutOfRange ∧ exec (.storeR57 f) s = .fault .addressOutOfRange) ∧
    ∀ w : Word, (fieldF w = 0o56 → decode w = .andStore56 (fieldsOf w)) ∧ (fieldF w = 0o57 → decode w = .storeR57 (fieldsOf w))

/-! ## Group 6 (R117 to R127) -/

/-- 60: zeros enter at bit 0 and the bits leaving bit 19 are lost; a count of 20 or more gives 0; R and OV are unchanged
(OV: R119, D34, log 31); a count of 1024 or more has no meaning (R120 with the exceptions of R117; the count and its bound
are D13, log 37). -/
def Obligations.LogicalShiftMovesTheBitsOfA : Prop :=
  ∀ (f : Fields) (s : State),
    ((s.advance.modifiedN f).toNat < 1024 →
      exec (.shiftLogical60 f) s = .next { s.passed f with a := s.a <<< (s.advance.modifiedN f).toNat } ∧
      (20 ≤ (s.advance.modifiedN f).toNat → s.a <<< (s.advance.modifiedN f).toNat = 0)) ∧
    (1024 ≤ (s.advance.modifiedN f).toNat → exec (.shiftLogical60 f) s = .refused .shiftCountTooLarge)

/-- 61: A receives the number whose value is A times 2^c when that is a word; otherwise, and for a count of 1024 or more,
the step has no meaning; R and OV are unchanged (R121, D13, log 37; OV: R119, D34, log 31). -/
def Obligations.ArithmeticalShiftMultipliesA : Prop :=
  ∀ (f : Fields) (s : State),
    (∀ x : Word, (s.advance.modifiedN f).toNat < 1024 → sint x = sint s.a * 2 ^ (s.advance.modifiedN f).toNat →
      exec (.shiftArith61 f) s = .next { s.passed f with a := x }) ∧
    ((s.advance.modifiedN f).toNat < 1024 → (∀ x : Word, sint x ≠ sint s.a * 2 ^ (s.advance.modifiedN f).toNat) →
      exec (.shiftArith61 f) s = .refused .arithShiftOverflow) ∧
    (1024 ≤ (s.advance.modifiedN f).toNat → exec (.shiftArith61 f) s = .refused .shiftCountTooLarge)

/-- 62: with R[19] = 0, {A,R} receives the double-length number times 2^c when that fits, R[19] staying 0 and OV unchanged
(R119, D34, log 31); otherwise, with R[19] = 1, and for a count of 1024 or more, the step has no meaning (R117, R118, R122,
D13, D14, log 37, log 39). Where two reasons apply, which is named is of no account (R143). -/
def Obligations.DoubleShiftMultipliesAR : Prop :=
  ∀ (f : Fields) (s : State),
    ((s.advance.modifiedN f).toNat < 1024 →
      (∀ x y : Word, s.r.getLsbD 19 = false → y.getLsbD 19 = false →
        sint x * 2 ^ 19 + y.toNat = (sint s.a * 2 ^ 19 + s.r.toNat) * 2 ^ (s.advance.modifiedN f).toNat →
        exec (.shiftDouble62 f) s = .next { s.passed f with a := x, r := y }) ∧
      (s.r.getLsbD 19 = false →
        (∀ x y : Word, y.getLsbD 19 = false →
          sint x * 2 ^ 19 + y.toNat ≠ (sint s.a * 2 ^ 19 + s.r.toNat) * 2 ^ (s.advance.modifiedN f).toNat) →
        exec (.shiftDouble62 f) s = .refused .arithShiftOverflow) ∧
      (s.r.getLsbD 19 = true → exec (.shiftDouble62 f) s = .refused .doubleLengthMalformed)) ∧
    (1024 ≤ (s.advance.modifiedN f).toNat → exec (.shiftDouble62 f) s = .refused .shiftCountTooLarge)

/-- 63: for a sum X of A and the word from 0 to 2^19 - 1, A receives the integer root of X * 2^19, which fits with bit 19 =
0; R and OV are unchanged; outside that domain the step has no meaning (R123; floor is D17, log 14; OV unchanged is R119,
D34, log 31). -/
def Obligations.SquareRootIsTheFloorOfTheRoot : Prop :=
  ∀ (f : Fields) (s : State) (m : Word), s.Holds (directPlace f s.advance) m →
    (0 ≤ sint s.a + sint m → sint s.a + sint m ≤ 2 ^ 19 - 1 →
      ∃ x : Word, 0 ≤ sint x ∧ sint x * sint x ≤ (sint s.a + sint m) * 2 ^ 19 ∧
        (sint s.a + sint m) * 2 ^ 19 < (sint x + 1) * (sint x + 1) ∧
        exec (.squareRoot63 f) s = .next { s.passed f with a := x }) ∧
    (sint s.a + sint m < 0 ∨ 2 ^ 19 - 1 < sint s.a + sint m → exec (.squareRoot63 f) s = .refused .sqrtDomain)

/-- 64: {A,R} receives the exact product with R[19] = 0; OV is unchanged; -1 times -1 has no meaning (R124, D15, log 24; the
layout is D14, log 39; OV unchanged is R119, D34, log 31). -/
def Obligations.DoubleMultiplyIsExact : Prop :=
  ∀ (f : Fields) (s : State) (m : Word), s.Holds (directPlace f s.advance) m →
    (sint s.a * sint m ≠ 2 ^ 38 →
      ∃ x y : Word, sint x * 2 ^ 19 + y.toNat = sint s.a * sint m ∧ y.getLsbD 19 = false ∧
        exec (.mulDouble64 f) s = .next { s.passed f with a := x, r := y }) ∧
    (sint s.a * sint m = 2 ^ 38 → exec (.mulDouble64 f) s = .refused .multiplyOverflow)

/-- 65: A receives the more significant half of the product, R is cleared, OV is unchanged; -1 times -1 has no meaning
(R125; truncation is D15, log 13; that 65 multiplies with M = 1, where the table prints a plain load, is C6, log 36; OV
unchanged is R119, D34, log 31). -/
def Obligations.SingleMultiplyTruncatesAndClearsR : Prop :=
  ∀ (f : Fields) (s : State) (m : Word), s.Holds (directPlace f s.advance) m →
    (sint s.a * sint m ≠ 2 ^ 38 →
      ∃ x : Word, sint x * 2 ^ 19 ≤ sint s.a * sint m ∧ sint s.a * sint m < (sint x + 1) * 2 ^ 19 ∧
        exec (.mulSingle65 f) s = .next { s.passed f with a := x, r := 0 }) ∧
    (sint s.a * sint m = 2 ^ 38 → exec (.mulSingle65 f) s = .refused .multiplyOverflow)

/-- 66 and 67: with R[19] = 0, a divisor that is not 0 and a quotient below 1 in magnitude, some quotient and remainder that
meet the relation of R126 are delivered: by 66 both, by 67 the quotient with R cleared. Which of them is a free value (D16,
log 10); only the model's own count of draws may change besides. An exact division leaves nothing open (R126, R127; the
double-length layout is D14, log 39; OV unchanged is R119, D34, log 31). -/
def Obligations.DivisionMeetsItsRelation : Prop :=
  ∀ (f : Fields) (s : State) (d : Word), s.Holds (directPlace f s.advance) d → s.r.getLsbD 19 = false → sint d ≠ 0 →
    |sint s.a * 2 ^ 19 + s.r.toNat| < |sint d| * 2 ^ 19 →
    (∃ (q rem : Int) (n : Nat),
      sint s.a * 2 ^ 19 + s.r.toNat = q * sint d + rem ∧ |rem| < |sint d| ∧ -2 ^ 19 ≤ q ∧ q ≤ 2 ^ 19 - 1 ∧
      exec (.divDouble66 f) s = .next { s.passed f with r := word q, a := word rem, draws := n } ∧
      exec (.divSingle67 f) s = .next { s.passed f with a := word q, r := 0, draws := n }) ∧
    ∀ q : Int, sint s.a * 2 ^ 19 + s.r.toNat = q * sint d →
      exec (.divDouble66 f) s = .next { s.passed f with r := word q, a := 0 } ∧
      exec (.divSingle67 f) s = .next { s.passed f with a := word q, r := 0 }

/-- 66 and 67 have no meaning for a zero divisor, a quotient of magnitude 1 or more, or R[19] = 1 (R118, R126, R127; the
double-length layout and the stop for R[19] = 1 are D14, log 39). -/
def Obligations.DivisionOutsideItsDomainStops : Prop :=
  ∀ (f : Fields) (s : State) (d : Word), s.Holds (directPlace f s.advance) d →
    (s.r.getLsbD 19 = true →
      exec (.divDouble66 f) s = .refused .doubleLengthMalformed ∧
      exec (.divSingle67 f) s = .refused .doubleLengthMalformed) ∧
    (s.r.getLsbD 19 = false → sint d = 0 →
      exec (.divDouble66 f) s = .refused .divideByZero ∧ exec (.divSingle67 f) s = .refused .divideByZero) ∧
    (s.r.getLsbD 19 = false → sint d ≠ 0 → |sint d| * 2 ^ 19 ≤ |sint s.a * 2 ^ 19 + s.r.toNat| →
      exec (.divDouble66 f) s = .refused .quotientOverflow ∧ exec (.divSingle67 f) s = .refused .quotientOverflow)

/-! ## Group 7 (R128 to R139, R142) -/

/-- 70 and 73 take the next datum of a ready input device: 70 adds it to A, 73 loads it, and the datum is consumed; 77 hands
A to a ready output device; nothing else changes (R129, R131, R134, R138; the tape reader's five right-justified bits are D35, log 21; OV is
drawn, D9, log 9; the wrapped sum is D2, log 18). -/
def Obligations.DirectTransfersMoveOneWord : Prop :=
  ∀ (f : Fields) (s : State) (d : Device), deviceNumber f s.advance = .ok d → d ≠ pcrDevice → s.busy.get d = false →
    exec (.output77 f) s = .next { s.passed f with outputs := s.outputs ++ [(d, s.a)] } ∧
    ∀ (w : Word) (rest : List Word), s.inputs.get d = w :: rest →
    exec (.inputAdd70 f) s = .next
      (({ s.passed f with
          a := word (sint s.a + sint (deviceWord d w))
          inputs := s.inputs.set d.val rest d.isLt } : State).drawOv (outOfRange (sint s.a + sint (deviceWord d w)))) ∧
    exec (.inputRead73 f) s = .next { s.passed f with
      a := deviceWord d w
      inputs := s.inputs.set d.val rest d.isLt } ∧
    (d = tapeReader → (deviceWord d w).toNat = w.toNat % 32) ∧ (d ≠ tapeReader → deviceWord d w = w)

/-- A device that cannot take part in the transfer now holds the instruction: nothing changes, S stays, LOCK stays (R130; D19,
log 22). -/
def Obligations.DeviceNotReadyHolds : Prop :=
  ∀ (f : Fields) (s : State) (d : Device), deviceNumber f s.advance = .ok d → d ≠ pcrDevice →
    (s.busy.get d = true ∨ s.inputs.get d = [] →
      exec (.inputAdd70 f) s = .next s ∧ exec (.inputRead73 f) s = .next s) ∧
    (s.busy.get d = true → exec (.output77 f) s = .next s)

/-- Device 2 is the PCR: 70/2 and 73/2 deliver what the open function pcr_read gives of it and leave it unchanged, 77/2 makes
it what the open function pcr_write gives; it never holds (R130, R139; D22, log 8). 70/2 adds as every 70 does: OV is drawn on
overflow (R131; D9, log 9) and the sum is wrapped (D2, log 18). -/
def Obligations.DeviceTwoIsTheProgramControlRegister : Prop :=
  ∀ (f : Fields) (s : State), deviceNumber f s.advance = .ok pcrDevice →
    exec (.inputAdd70 f) s = .next
      (({ s.passed f with a := word (sint s.a + sint (Config.pcrRead s.pcr)) } : State).drawOv
        (outOfRange (sint s.a + sint (Config.pcrRead s.pcr)))) ∧
    exec (.inputRead73 f) s = .next { s.passed f with a := Config.pcrRead s.pcr } ∧
    exec (.output77 f) s = .next { s.passed f with pcr := Config.pcrWrite s.pcr s.a }

/-- The device number is the modified N: 0, 1 and 2 always exist and a number the platform adds exists too; 16 or more has
no meaning, nor has a number with no device (R128; D18, log 7). -/
def Obligations.DeviceNumberIsTheModifiedN : Prop :=
  ∀ (f : Fields) (s : State),
    ((s.advance.modifiedN f).toNat ≤ 2 →
      ∃ d : Device, d.val = (s.advance.modifiedN f).toNat ∧ deviceNumber f s.advance = .ok d) ∧
    (16 ≤ (s.advance.modifiedN f).toNat →
      exec (.inputAdd70 f) s = .refused .deviceOutOfRange ∧ exec (.inputRead73 f) s = .refused .deviceOutOfRange ∧
      exec (.output77 f) s = .refused .deviceOutOfRange) ∧
    ∀ d : Device, d.val = (s.advance.modifiedN f).toNat →
      (s.hasDevice d = true ↔ d.val ≤ 2 ∨ s.params.platform.get d = true) ∧
      (s.hasDevice d = true → deviceNumber f s.advance = .ok d) ∧
      (s.hasDevice d = false →
        exec (.inputAdd70 f) s = .refused .unknownDevice ∧ exec (.inputRead73 f) s = .refused .unknownDevice ∧
        exec (.output77 f) s = .refused .unknownDevice)

/-- 71, 72 and 75 stop dynamically: S stays at the instruction, LOCK receives L, nothing else changes, and in the quiet
environment with the current level the best one every later step does the same (R132, R133, R136, R142; the meaning of the term
is the spec's general knowledge, D21, log 23). -/
def Obligations.DynamicStopRepeatsForEver : Prop :=
  (∀ (f : Fields) (s : State),
    exec (.stop71 f) s = .next { s with lock := f.l } ∧ exec (.stop72 f) s = .next { s with lock := f.l } ∧
    exec (.stop75 f) s = .next { s with lock := f.l }) ∧
  ∀ (s : State) (f : Fields) (w : Word) (k : Nat), s.env = [] → s.idle = false → s.best = some s.cur → s.Holds s.seq w →
    (decode w = .stop71 f ∨ decode w = .stop72 f ∨ decode w = .stop75 f) →
    Sys2Proof.core.run (k + 1) s = .next { s with lock := f.l }

/-- 74 has no meaning in any state: "no details have yet come to light" (R135; D20). -/
def Obligations.Function74HasNoMeaning : Prop :=
  ∀ (f : Fields) (s : State), exec (.autoControl74 f) s = .refused .function74

/-! ## Program Breaks (R144 to R153) -/

/-- 76: S is set to the place named, which is stored as the level's re-entry address; the level's stimulus is cleared; the best
level then runnable is entered at its own re-entry address, and with none the processor idles; A, B, R, OV and the stores are
unchanged, LOCK receives L; out of range, no meaning (R137, R149 to R151; C7, D29, D30, log 26, log 28). -/
def Obligations.Function76BreaksToTheBestLevel : Prop :=
  ∀ (f : Fields) (s : State),
    (s.inRange (directPlace f s.advance) = true →
      (∀ l, s.clearOwnStimulus.best = some l →
        exec (.programBreak76 f) s = .next { s with
          stim := s.stim.set s.cur.val false s.cur.isLt
          reentry := s.reentry.set s.cur.val (directPlace f s.advance) s.cur.isLt
          cur := l
          seq := s.reentry.get l
          idle := false
          lock := f.l }) ∧
      (s.clearOwnStimulus.best = none →
        exec (.programBreak76 f) s = .next { s with
          stim := s.stim.set s.cur.val false s.cur.isLt
          reentry := s.reentry.set s.cur.val (directPlace f s.advance) s.cur.isLt
          seq := directPlace f s.advance
          idle := true
          lock := f.l })) ∧
    (s.inRange (directPlace f s.advance) = false → exec (.programBreak76 f) s = .fault .addressOutOfRange)

/-- Between instructions, after the environment has acted (a stimulus may arrive at this very boundary), with LOCK = 0 and a
best level that is not the current one, the break saves S as the current level's re-entry address and enters the best level
at its own; nothing else changes (R149, R150; D22, log 35; D31, log 27). -/
def Obligations.BreakOnAStimulusSwitchesLevel : Prop :=
  ∀ (s : State) (l : Level), s.idle = false → s.lock = false → s.environment.best = some l → l ≠ s.cur →
    s.boundary = { s.environment with
      reentry := s.reentry.set s.cur.val s.seq s.cur.isLt
      cur := l
      seq := s.reentry.get l }

/-- With LOCK = 1 no break comes before the next instruction, whatever the environment does: the level, S and the re-entry
addresses stay, and a stimulus present, or arriving by a demand or a push-button, stays present (R144, R145, R147). That it
does so whatever the switch is the spec's decision, D22, log 35. -/
def Obligations.LockHoldsOffTheBreak : Prop :=
  ∀ s : State, s.idle = false → s.lock = true →
    s.boundary.cur = s.cur ∧ s.boundary.seq = s.seq ∧ s.boundary.reentry = s.reentry ∧ s.boundary.idle = false ∧
    (∀ l, s.stim.get l = true → s.boundary.stim.get l = true) ∧
    ∀ l events later, s.env = events :: later → EnvEvent.demand l ∈ events ∨ EnvEvent.pushButton l ∈ events →
      s.boundary.stim.get l = true

/-- After the environment has acted at a boundary: a processor that does not idle, with LOCK = 0 and no level runnable,
saves S as the current level's re-entry address and idles; one that idles, with no level runnable, goes on idling, obeying
nothing; one that idles, with a level runnable, goes on at the best level's re-entry address, whatever LOCK is. Nothing else
changes but by the environment (R152; D29; the entry into idling and the part of LOCK are inferred, log 26). -/
def Obligations.IdlingEndsWithARunnableLevel : Prop :=
  ∀ s : State,
    (s.idle = false → s.lock = false → s.environment.best = none →
      step s = .next { s.environment with reentry := s.reentry.set s.cur.val s.seq s.cur.isLt, idle := true }) ∧
    (s.idle = true → s.environment.best = none → step s = .next s.environment) ∧
    ∀ l, s.idle = true → s.environment.best = some l →
      s.boundary = { s.environment with cur := l, seq := s.reentry.get l, idle := false }

/-- `best` is a runnable level that outranks every other runnable level, there is none only when no level is runnable, and
the priority is a total order whatever the parameter is (R146, R148; D22, log 6). -/
def Obligations.BestLevelOutranksTheOthers : Prop :=
  (∀ s : State,
    (∀ l, s.best = some l →
      (s.stim.get l = true ∧ s.switch.get l = true ∧ pcrAllows s.pcr l = true) ∧
      ∀ m, s.runnable m = true → m ≠ l → outranks s.params l m = true) ∧
    (s.best = none → ∀ m, s.runnable m = false)) ∧
  ∀ (p : Params) (l m n : Level),
    outranks p l l = false ∧ (outranks p l m = true → outranks p m n = true → outranks p l n = true) ∧
    (l ≠ m → outranks p l m = true ∨ outranks p m l = true)

/-! ## The environment (R2, R40, R43, R144, R155) -/

/-- What happens between instructions changes no register, not S, LOCK, levels or output, without an autonomous transfer no
store word, and without a PCR change not the PCR. The events of a boundary happen one after the other: a demand or a push-button
sets its level's stimulus and no other, a switch turned is as turned, a datum delivered joins the end of its device's queue, Busy
is as set, the PCR is as changed, each word of a transfer in range is stored and one out of range is not; nothing else
changes (R2, R129, R130, R144, R146, R149, R155; D22, log 35; the schedule and the events are the model's, log 19, 20, 21, 22;
that the PCR may change without a 77/2 is log 43). Where no transfer is in progress the environment changes no store word,
and no step sets one in progress (R155). -/
def Obligations.EnvironmentLeavesTheProcessorAlone : Prop :=
  (∀ s : State,
    (s.environment.a = s.a ∧ s.environment.b = s.b ∧ s.environment.r = s.r ∧ s.environment.ov = s.ov ∧
      s.environment.seq = s.seq ∧ s.environment.lock = s.lock ∧ s.environment.cur = s.cur ∧
      s.environment.reentry = s.reentry ∧ s.environment.idle = s.idle ∧ s.environment.outputs = s.outputs) ∧
    (∀ events later, s.env = events :: later → (∀ e ∈ events, e.isTransfer = false) → SameStores s s.environment) ∧
    (∀ events later, s.env = events :: later → (∀ e ∈ events, e.isPcrChange = false) → s.environment.pcr = s.pcr) ∧
    (s.NoTransfers → SameStores s s.environment ∧ ∀ t, step s = .next t → t.NoTransfers) ∧
    (s.env = [] → s.environment = s) ∧
    (∀ later, s.env = [] :: later → s.environment = { s with env := later }) ∧
    ∀ e events later, s.env = (e :: events) :: later →
      s.environment = ({ s.happen e with env := events :: later } : State).environment) ∧
  ∀ (s : State) (l : Level) (d : Device) (b : Bool) (w : Word) (p : Place) (ws : List (Place × Word)) (v : Pcr),
    (∃ v, s.happen (.demand l) = { s with stim := v } ∧ s.happen (.pushButton l) = { s with stim := v } ∧
      ∀ m, v.get m = (decide (m = l) || s.stim.get m)) ∧
    (∃ v, s.happen (.setSwitch l b) = { s with switch := v } ∧ ∀ m, v.get m = if m = l then b else s.switch.get m) ∧
    (∃ v, s.happen (.deliver d w) = { s with inputs := v } ∧
      ∀ c, v.get c = if c = d then s.inputs.get d ++ [w] else s.inputs.get c) ∧
    (∃ v, s.happen (.setBusy d b) = { s with busy := v } ∧ ∀ c, v.get c = if c = d then b else s.busy.get c) ∧
    s.happen (.pcrChange v) = { s with pcr := v } ∧
    s.happen (.transfer []) = s ∧
    s.happen (.transfer ((p, w) :: ws)) = (s.happen (.transfer [(p, w)])).happen (.transfer ws) ∧
    (s.inRange p = true →
      s.happen (.transfer [(p, w)]) = s.poke p w ∧ StoredOnly s (s.happen (.transfer [(p, w)])) p w) ∧
    (s.inRange p = false → s.happen (.transfer [(p, w)]) = s)

/-- A word stored is what a later fetch of its place obeys, with nothing to be done between (R43, R168; D25, log 41). -/
def Obligations.StoredWordIsObeyedWhenFetched : Prop :=
  ∀ (s t : State) (p : Place) (w : Word), s.write p w = .ok t → ({ t with seq := p } : State).Quiet →
    step { t with seq := p } = exec (decode w) { t with seq := p }
end

