-- ==== Sys2Proof/Laws/State.lean ====
section
/-!
SUPPORT. What each named update of State does to each field: one lemma per field per update.
-/

namespace Sys2Proof.Machine

/-! S advances. -/

@[simp] theorem State.advance_a (s : State) : (s.advance).a = s.a := rfl
@[simp] theorem State.advance_b (s : State) : (s.advance).b = s.b := rfl
@[simp] theorem State.advance_r (s : State) : (s.advance).r = s.r := rfl
@[simp] theorem State.advance_ov (s : State) : (s.advance).ov = s.ov := rfl
@[simp] theorem State.advance_seq (s : State) : (s.advance).seq = nextPlace s.seq := rfl
@[simp] theorem State.advance_lock (s : State) : (s.advance).lock = s.lock := rfl
@[simp] theorem State.advance_fast (s : State) : (s.advance).fast = s.fast := rfl
@[simp] theorem State.advance_main (s : State) : (s.advance).main = s.main := rfl
@[simp] theorem State.advance_pcr (s : State) : (s.advance).pcr = s.pcr := rfl
@[simp] theorem State.advance_stim (s : State) : (s.advance).stim = s.stim := rfl
@[simp] theorem State.advance_switch (s : State) : (s.advance).switch = s.switch := rfl
@[simp] theorem State.advance_reentry (s : State) : (s.advance).reentry = s.reentry := rfl
@[simp] theorem State.advance_cur (s : State) : (s.advance).cur = s.cur := rfl
@[simp] theorem State.advance_idle (s : State) : (s.advance).idle = s.idle := rfl
@[simp] theorem State.advance_inputs (s : State) : (s.advance).inputs = s.inputs := rfl
@[simp] theorem State.advance_busy (s : State) : (s.advance).busy = s.busy := rfl
@[simp] theorem State.advance_outputs (s : State) : (s.advance).outputs = s.outputs := rfl
@[simp] theorem State.advance_env (s : State) : (s.advance).env = s.env := rfl
@[simp] theorem State.advance_draws (s : State) : (s.advance).draws = s.draws := rfl
@[simp] theorem State.advance_params (s : State) : (s.advance).params = s.params := rfl

/-! Group 3 sets OV. -/

@[simp] theorem State.setOv_a (s : State) (o : Bool) : (s.setOv o).a = s.a := rfl
@[simp] theorem State.setOv_b (s : State) (o : Bool) : (s.setOv o).b = s.b := rfl
@[simp] theorem State.setOv_r (s : State) (o : Bool) : (s.setOv o).r = s.r := rfl
@[simp] theorem State.setOv_ov (s : State) (o : Bool) : (s.setOv o).ov = (s.ov || o) := rfl
@[simp] theorem State.setOv_seq (s : State) (o : Bool) : (s.setOv o).seq = s.seq := rfl
@[simp] theorem State.setOv_lock (s : State) (o : Bool) : (s.setOv o).lock = s.lock := rfl
@[simp] theorem State.setOv_fast (s : State) (o : Bool) : (s.setOv o).fast = s.fast := rfl
@[simp] theorem State.setOv_main (s : State) (o : Bool) : (s.setOv o).main = s.main := rfl
@[simp] theorem State.setOv_pcr (s : State) (o : Bool) : (s.setOv o).pcr = s.pcr := rfl
@[simp] theorem State.setOv_stim (s : State) (o : Bool) : (s.setOv o).stim = s.stim := rfl
@[simp] theorem State.setOv_switch (s : State) (o : Bool) : (s.setOv o).switch = s.switch := rfl
@[simp] theorem State.setOv_reentry (s : State) (o : Bool) : (s.setOv o).reentry = s.reentry := rfl
@[simp] theorem State.setOv_cur (s : State) (o : Bool) : (s.setOv o).cur = s.cur := rfl
@[simp] theorem State.setOv_idle (s : State) (o : Bool) : (s.setOv o).idle = s.idle := rfl
@[simp] theorem State.setOv_inputs (s : State) (o : Bool) : (s.setOv o).inputs = s.inputs := rfl
@[simp] theorem State.setOv_busy (s : State) (o : Bool) : (s.setOv o).busy = s.busy := rfl
@[simp] theorem State.setOv_outputs (s : State) (o : Bool) : (s.setOv o).outputs = s.outputs := rfl
@[simp] theorem State.setOv_env (s : State) (o : Bool) : (s.setOv o).env = s.env := rfl
@[simp] theorem State.setOv_draws (s : State) (o : Bool) : (s.setOv o).draws = s.draws := rfl
@[simp] theorem State.setOv_params (s : State) (o : Bool) : (s.setOv o).params = s.params := rfl

/-! OV is drawn. -/

@[simp] theorem State.drawOv_a (s : State) (o : Bool) : (s.drawOv o).a = s.a := by cases o <;> rfl
@[simp] theorem State.drawOv_b (s : State) (o : Bool) : (s.drawOv o).b = s.b := by cases o <;> rfl
@[simp] theorem State.drawOv_r (s : State) (o : Bool) : (s.drawOv o).r = s.r := by cases o <;> rfl
@[simp] theorem State.drawOv_ov (s : State) (o : Bool) : (s.drawOv o).ov = (if o then s.ov || Config.ovDraw s.draws else s.ov) := by cases o <;> rfl
@[simp] theorem State.drawOv_seq (s : State) (o : Bool) : (s.drawOv o).seq = s.seq := by cases o <;> rfl
@[simp] theorem State.drawOv_lock (s : State) (o : Bool) : (s.drawOv o).lock = s.lock := by cases o <;> rfl
@[simp] theorem State.drawOv_fast (s : State) (o : Bool) : (s.drawOv o).fast = s.fast := by cases o <;> rfl
@[simp] theorem State.drawOv_main (s : State) (o : Bool) : (s.drawOv o).main = s.main := by cases o <;> rfl
@[simp] theorem State.drawOv_pcr (s : State) (o : Bool) : (s.drawOv o).pcr = s.pcr := by cases o <;> rfl
@[simp] theorem State.drawOv_stim (s : State) (o : Bool) : (s.drawOv o).stim = s.stim := by cases o <;> rfl
@[simp] theorem State.drawOv_switch (s : State) (o : Bool) : (s.drawOv o).switch = s.switch := by cases o <;> rfl
@[simp] theorem State.drawOv_reentry (s : State) (o : Bool) : (s.drawOv o).reentry = s.reentry := by cases o <;> rfl
@[simp] theorem State.drawOv_cur (s : State) (o : Bool) : (s.drawOv o).cur = s.cur := by cases o <;> rfl
@[simp] theorem State.drawOv_idle (s : State) (o : Bool) : (s.drawOv o).idle = s.idle := by cases o <;> rfl
@[simp] theorem State.drawOv_inputs (s : State) (o : Bool) : (s.drawOv o).inputs = s.inputs := by cases o <;> rfl
@[simp] theorem State.drawOv_busy (s : State) (o : Bool) : (s.drawOv o).busy = s.busy := by cases o <;> rfl
@[simp] theorem State.drawOv_outputs (s : State) (o : Bool) : (s.drawOv o).outputs = s.outputs := by cases o <;> rfl
@[simp] theorem State.drawOv_env (s : State) (o : Bool) : (s.drawOv o).env = s.env := by cases o <;> rfl
@[simp] theorem State.drawOv_draws (s : State) (o : Bool) : (s.drawOv o).draws = (if o then s.draws + 1 else s.draws) := by cases o <;> rfl
@[simp] theorem State.drawOv_params (s : State) (o : Bool) : (s.drawOv o).params = s.params := by cases o <;> rfl

/-! One store word is replaced. -/

@[simp] theorem State.poke_a (s : State) (p : Place) (v : Word) : (s.poke p v).a = s.a := by obtain ⟨_ | _, _⟩ := p <;> rfl
@[simp] theorem State.poke_b (s : State) (p : Place) (v : Word) : (s.poke p v).b = s.b := by obtain ⟨_ | _, _⟩ := p <;> rfl
@[simp] theorem State.poke_r (s : State) (p : Place) (v : Word) : (s.poke p v).r = s.r := by obtain ⟨_ | _, _⟩ := p <;> rfl
@[simp] theorem State.poke_ov (s : State) (p : Place) (v : Word) : (s.poke p v).ov = s.ov := by obtain ⟨_ | _, _⟩ := p <;> rfl
@[simp] theorem State.poke_seq (s : State) (p : Place) (v : Word) : (s.poke p v).seq = s.seq := by obtain ⟨_ | _, _⟩ := p <;> rfl
@[simp] theorem State.poke_lock (s : State) (p : Place) (v : Word) : (s.poke p v).lock = s.lock := by obtain ⟨_ | _, _⟩ := p <;> rfl
@[simp] theorem State.poke_fast (s : State) (p : Place) (v : Word) : (s.poke p v).fast = (if p.store = .fast then s.fast.write p.addr v else s.fast) := by obtain ⟨_ | _, _⟩ := p <;> rfl
@[simp] theorem State.poke_main (s : State) (p : Place) (v : Word) : (s.poke p v).main = (if p.store = .main then s.main.write p.addr v else s.main) := by obtain ⟨_ | _, _⟩ := p <;> rfl
@[simp] theorem State.poke_pcr (s : State) (p : Place) (v : Word) : (s.poke p v).pcr = s.pcr := by obtain ⟨_ | _, _⟩ := p <;> rfl
@[simp] theorem State.poke_stim (s : State) (p : Place) (v : Word) : (s.poke p v).stim = s.stim := by obtain ⟨_ | _, _⟩ := p <;> rfl
@[simp] theorem State.poke_switch (s : State) (p : Place) (v : Word) : (s.poke p v).switch = s.switch := by obtain ⟨_ | _, _⟩ := p <;> rfl
@[simp] theorem State.poke_reentry (s : State) (p : Place) (v : Word) : (s.poke p v).reentry = s.reentry := by obtain ⟨_ | _, _⟩ := p <;> rfl
@[simp] theorem State.poke_cur (s : State) (p : Place) (v : Word) : (s.poke p v).cur = s.cur := by obtain ⟨_ | _, _⟩ := p <;> rfl
@[simp] theorem State.poke_idle (s : State) (p : Place) (v : Word) : (s.poke p v).idle = s.idle := by obtain ⟨_ | _, _⟩ := p <;> rfl
@[simp] theorem State.poke_inputs (s : State) (p : Place) (v : Word) : (s.poke p v).inputs = s.inputs := by obtain ⟨_ | _, _⟩ := p <;> rfl
@[simp] theorem State.poke_busy (s : State) (p : Place) (v : Word) : (s.poke p v).busy = s.busy := by obtain ⟨_ | _, _⟩ := p <;> rfl
@[simp] theorem State.poke_outputs (s : State) (p : Place) (v : Word) : (s.poke p v).outputs = s.outputs := by obtain ⟨_ | _, _⟩ := p <;> rfl
@[simp] theorem State.poke_env (s : State) (p : Place) (v : Word) : (s.poke p v).env = s.env := by obtain ⟨_ | _, _⟩ := p <;> rfl
@[simp] theorem State.poke_draws (s : State) (p : Place) (v : Word) : (s.poke p v).draws = s.draws := by obtain ⟨_ | _, _⟩ := p <;> rfl
@[simp] theorem State.poke_params (s : State) (p : Place) (v : Word) : (s.poke p v).params = s.params := by obtain ⟨_ | _, _⟩ := p <;> rfl

/-! {A,R} receives a number. -/

@[simp] theorem State.setDouble_a (s : State) (v : Int) : (s.setDouble v).a = word (v / 2 ^ 19) := rfl
@[simp] theorem State.setDouble_b (s : State) (v : Int) : (s.setDouble v).b = s.b := rfl
@[simp] theorem State.setDouble_r (s : State) (v : Int) : (s.setDouble v).r = word (v % 2 ^ 19) := rfl
@[simp] theorem State.setDouble_ov (s : State) (v : Int) : (s.setDouble v).ov = s.ov := rfl
@[simp] theorem State.setDouble_seq (s : State) (v : Int) : (s.setDouble v).seq = s.seq := rfl
@[simp] theorem State.setDouble_lock (s : State) (v : Int) : (s.setDouble v).lock = s.lock := rfl
@[simp] theorem State.setDouble_fast (s : State) (v : Int) : (s.setDouble v).fast = s.fast := rfl
@[simp] theorem State.setDouble_main (s : State) (v : Int) : (s.setDouble v).main = s.main := rfl
@[simp] theorem State.setDouble_pcr (s : State) (v : Int) : (s.setDouble v).pcr = s.pcr := rfl
@[simp] theorem State.setDouble_stim (s : State) (v : Int) : (s.setDouble v).stim = s.stim := rfl
@[simp] theorem State.setDouble_switch (s : State) (v : Int) : (s.setDouble v).switch = s.switch := rfl
@[simp] theorem State.setDouble_reentry (s : State) (v : Int) : (s.setDouble v).reentry = s.reentry := rfl
@[simp] theorem State.setDouble_cur (s : State) (v : Int) : (s.setDouble v).cur = s.cur := rfl
@[simp] theorem State.setDouble_idle (s : State) (v : Int) : (s.setDouble v).idle = s.idle := rfl
@[simp] theorem State.setDouble_inputs (s : State) (v : Int) : (s.setDouble v).inputs = s.inputs := rfl
@[simp] theorem State.setDouble_busy (s : State) (v : Int) : (s.setDouble v).busy = s.busy := rfl
@[simp] theorem State.setDouble_outputs (s : State) (v : Int) : (s.setDouble v).outputs = s.outputs := rfl
@[simp] theorem State.setDouble_env (s : State) (v : Int) : (s.setDouble v).env = s.env := rfl
@[simp] theorem State.setDouble_draws (s : State) (v : Int) : (s.setDouble v).draws = s.draws := rfl
@[simp] theorem State.setDouble_params (s : State) (v : Int) : (s.setDouble v).params = s.params := rfl

/-! The draw of a division is counted. -/

@[simp] theorem State.countDivision_a (s : State) (v d : Int) : (s.countDivision v d).a = s.a := by unfold State.countDivision; split <;> rfl
@[simp] theorem State.countDivision_b (s : State) (v d : Int) : (s.countDivision v d).b = s.b := by unfold State.countDivision; split <;> rfl
@[simp] theorem State.countDivision_r (s : State) (v d : Int) : (s.countDivision v d).r = s.r := by unfold State.countDivision; split <;> rfl
@[simp] theorem State.countDivision_ov (s : State) (v d : Int) : (s.countDivision v d).ov = s.ov := by unfold State.countDivision; split <;> rfl
@[simp] theorem State.countDivision_seq (s : State) (v d : Int) : (s.countDivision v d).seq = s.seq := by unfold State.countDivision; split <;> rfl
@[simp] theorem State.countDivision_lock (s : State) (v d : Int) : (s.countDivision v d).lock = s.lock := by unfold State.countDivision; split <;> rfl
@[simp] theorem State.countDivision_fast (s : State) (v d : Int) : (s.countDivision v d).fast = s.fast := by unfold State.countDivision; split <;> rfl
@[simp] theorem State.countDivision_main (s : State) (v d : Int) : (s.countDivision v d).main = s.main := by unfold State.countDivision; split <;> rfl
@[simp] theorem State.countDivision_pcr (s : State) (v d : Int) : (s.countDivision v d).pcr = s.pcr := by unfold State.countDivision; split <;> rfl
@[simp] theorem State.countDivision_stim (s : State) (v d : Int) : (s.countDivision v d).stim = s.stim := by unfold State.countDivision; split <;> rfl
@[simp] theorem State.countDivision_switch (s : State) (v d : Int) : (s.countDivision v d).switch = s.switch := by unfold State.countDivision; split <;> rfl
@[simp] theorem State.countDivision_reentry (s : State) (v d : Int) : (s.countDivision v d).reentry = s.reentry := by unfold State.countDivision; split <;> rfl
@[simp] theorem State.countDivision_cur (s : State) (v d : Int) : (s.countDivision v d).cur = s.cur := by unfold State.countDivision; split <;> rfl
@[simp] theorem State.countDivision_idle (s : State) (v d : Int) : (s.countDivision v d).idle = s.idle := by unfold State.countDivision; split <;> rfl
@[simp] theorem State.countDivision_inputs (s : State) (v d : Int) : (s.countDivision v d).inputs = s.inputs := by unfold State.countDivision; split <;> rfl
@[simp] theorem State.countDivision_busy (s : State) (v d : Int) : (s.countDivision v d).busy = s.busy := by unfold State.countDivision; split <;> rfl
@[simp] theorem State.countDivision_outputs (s : State) (v d : Int) : (s.countDivision v d).outputs = s.outputs := by unfold State.countDivision; split <;> rfl
@[simp] theorem State.countDivision_env (s : State) (v d : Int) : (s.countDivision v d).env = s.env := by unfold State.countDivision; split <;> rfl
@[simp] theorem State.countDivision_draws (s : State) (v d : Int) : (s.countDivision v d).draws = (if divisionOpen v d then s.draws + 1 else s.draws) := by unfold State.countDivision; split <;> rfl
@[simp] theorem State.countDivision_params (s : State) (v d : Int) : (s.countDivision v d).params = s.params := by unfold State.countDivision; split <;> rfl

/-! A stimulus becomes present. -/

@[simp] theorem State.stimulate_a (s : State) (l : Level) : (s.stimulate l).a = s.a := rfl
@[simp] theorem State.stimulate_b (s : State) (l : Level) : (s.stimulate l).b = s.b := rfl
@[simp] theorem State.stimulate_r (s : State) (l : Level) : (s.stimulate l).r = s.r := rfl
@[simp] theorem State.stimulate_ov (s : State) (l : Level) : (s.stimulate l).ov = s.ov := rfl
@[simp] theorem State.stimulate_seq (s : State) (l : Level) : (s.stimulate l).seq = s.seq := rfl
@[simp] theorem State.stimulate_lock (s : State) (l : Level) : (s.stimulate l).lock = s.lock := rfl
@[simp] theorem State.stimulate_fast (s : State) (l : Level) : (s.stimulate l).fast = s.fast := rfl
@[simp] theorem State.stimulate_main (s : State) (l : Level) : (s.stimulate l).main = s.main := rfl
@[simp] theorem State.stimulate_pcr (s : State) (l : Level) : (s.stimulate l).pcr = s.pcr := rfl
@[simp] theorem State.stimulate_stim (s : State) (l : Level) : (s.stimulate l).stim = s.stim.set l.val true l.isLt := rfl
@[simp] theorem State.stimulate_switch (s : State) (l : Level) : (s.stimulate l).switch = s.switch := rfl
@[simp] theorem State.stimulate_reentry (s : State) (l : Level) : (s.stimulate l).reentry = s.reentry := rfl
@[simp] theorem State.stimulate_cur (s : State) (l : Level) : (s.stimulate l).cur = s.cur := rfl
@[simp] theorem State.stimulate_idle (s : State) (l : Level) : (s.stimulate l).idle = s.idle := rfl
@[simp] theorem State.stimulate_inputs (s : State) (l : Level) : (s.stimulate l).inputs = s.inputs := rfl
@[simp] theorem State.stimulate_busy (s : State) (l : Level) : (s.stimulate l).busy = s.busy := rfl
@[simp] theorem State.stimulate_outputs (s : State) (l : Level) : (s.stimulate l).outputs = s.outputs := rfl
@[simp] theorem State.stimulate_env (s : State) (l : Level) : (s.stimulate l).env = s.env := rfl
@[simp] theorem State.stimulate_draws (s : State) (l : Level) : (s.stimulate l).draws = s.draws := rfl
@[simp] theorem State.stimulate_params (s : State) (l : Level) : (s.stimulate l).params = s.params := rfl

/-! The stimulus of the current level is cleared. -/

@[simp] theorem State.clearOwnStimulus_a (s : State) : (s.clearOwnStimulus).a = s.a := rfl
@[simp] theorem State.clearOwnStimulus_b (s : State) : (s.clearOwnStimulus).b = s.b := rfl
@[simp] theorem State.clearOwnStimulus_r (s : State) : (s.clearOwnStimulus).r = s.r := rfl
@[simp] theorem State.clearOwnStimulus_ov (s : State) : (s.clearOwnStimulus).ov = s.ov := rfl
@[simp] theorem State.clearOwnStimulus_seq (s : State) : (s.clearOwnStimulus).seq = s.seq := rfl
@[simp] theorem State.clearOwnStimulus_lock (s : State) : (s.clearOwnStimulus).lock = s.lock := rfl
@[simp] theorem State.clearOwnStimulus_fast (s : State) : (s.clearOwnStimulus).fast = s.fast := rfl
@[simp] theorem State.clearOwnStimulus_main (s : State) : (s.clearOwnStimulus).main = s.main := rfl
@[simp] theorem State.clearOwnStimulus_pcr (s : State) : (s.clearOwnStimulus).pcr = s.pcr := rfl
@[simp] theorem State.clearOwnStimulus_stim (s : State) : (s.clearOwnStimulus).stim = s.stim.set s.cur.val false s.cur.isLt := rfl
@[simp] theorem State.clearOwnStimulus_switch (s : State) : (s.clearOwnStimulus).switch = s.switch := rfl
@[simp] theorem State.clearOwnStimulus_reentry (s : State) : (s.clearOwnStimulus).reentry = s.reentry := rfl
@[simp] theorem State.clearOwnStimulus_cur (s : State) : (s.clearOwnStimulus).cur = s.cur := rfl
@[simp] theorem State.clearOwnStimulus_idle (s : State) : (s.clearOwnStimulus).idle = s.idle := rfl
@[simp] theorem State.clearOwnStimulus_inputs (s : State) : (s.clearOwnStimulus).inputs = s.inputs := rfl
@[simp] theorem State.clearOwnStimulus_busy (s : State) : (s.clearOwnStimulus).busy = s.busy := rfl
@[simp] theorem State.clearOwnStimulus_outputs (s : State) : (s.clearOwnStimulus).outputs = s.outputs := rfl
@[simp] theorem State.clearOwnStimulus_env (s : State) : (s.clearOwnStimulus).env = s.env := rfl
@[simp] theorem State.clearOwnStimulus_draws (s : State) : (s.clearOwnStimulus).draws = s.draws := rfl
@[simp] theorem State.clearOwnStimulus_params (s : State) : (s.clearOwnStimulus).params = s.params := rfl

/-! The re-entry address of the current level is saved. -/

@[simp] theorem State.saveReentry_a (s : State) : (s.saveReentry).a = s.a := rfl
@[simp] theorem State.saveReentry_b (s : State) : (s.saveReentry).b = s.b := rfl
@[simp] theorem State.saveReentry_r (s : State) : (s.saveReentry).r = s.r := rfl
@[simp] theorem State.saveReentry_ov (s : State) : (s.saveReentry).ov = s.ov := rfl
@[simp] theorem State.saveReentry_seq (s : State) : (s.saveReentry).seq = s.seq := rfl
@[simp] theorem State.saveReentry_lock (s : State) : (s.saveReentry).lock = s.lock := rfl
@[simp] theorem State.saveReentry_fast (s : State) : (s.saveReentry).fast = s.fast := rfl
@[simp] theorem State.saveReentry_main (s : State) : (s.saveReentry).main = s.main := rfl
@[simp] theorem State.saveReentry_pcr (s : State) : (s.saveReentry).pcr = s.pcr := rfl
@[simp] theorem State.saveReentry_stim (s : State) : (s.saveReentry).stim = s.stim := rfl
@[simp] theorem State.saveReentry_switch (s : State) : (s.saveReentry).switch = s.switch := rfl
@[simp] theorem State.saveReentry_reentry (s : State) : (s.saveReentry).reentry = s.reentry.set s.cur.val s.seq s.cur.isLt := rfl
@[simp] theorem State.saveReentry_cur (s : State) : (s.saveReentry).cur = s.cur := rfl
@[simp] theorem State.saveReentry_idle (s : State) : (s.saveReentry).idle = s.idle := rfl
@[simp] theorem State.saveReentry_inputs (s : State) : (s.saveReentry).inputs = s.inputs := rfl
@[simp] theorem State.saveReentry_busy (s : State) : (s.saveReentry).busy = s.busy := rfl
@[simp] theorem State.saveReentry_outputs (s : State) : (s.saveReentry).outputs = s.outputs := rfl
@[simp] theorem State.saveReentry_env (s : State) : (s.saveReentry).env = s.env := rfl
@[simp] theorem State.saveReentry_draws (s : State) : (s.saveReentry).draws = s.draws := rfl
@[simp] theorem State.saveReentry_params (s : State) : (s.saveReentry).params = s.params := rfl

/-! A level is entered. -/

@[simp] theorem State.enterLevel_a (s : State) (l : Level) : (s.enterLevel l).a = s.a := rfl
@[simp] theorem State.enterLevel_b (s : State) (l : Level) : (s.enterLevel l).b = s.b := rfl
@[simp] theorem State.enterLevel_r (s : State) (l : Level) : (s.enterLevel l).r = s.r := rfl
@[simp] theorem State.enterLevel_ov (s : State) (l : Level) : (s.enterLevel l).ov = s.ov := rfl
@[simp] theorem State.enterLevel_seq (s : State) (l : Level) : (s.enterLevel l).seq = s.reentry.get l := rfl
@[simp] theorem State.enterLevel_lock (s : State) (l : Level) : (s.enterLevel l).lock = s.lock := rfl
@[simp] theorem State.enterLevel_fast (s : State) (l : Level) : (s.enterLevel l).fast = s.fast := rfl
@[simp] theorem State.enterLevel_main (s : State) (l : Level) : (s.enterLevel l).main = s.main := rfl
@[simp] theorem State.enterLevel_pcr (s : State) (l : Level) : (s.enterLevel l).pcr = s.pcr := rfl
@[simp] theorem State.enterLevel_stim (s : State) (l : Level) : (s.enterLevel l).stim = s.stim := rfl
@[simp] theorem State.enterLevel_switch (s : State) (l : Level) : (s.enterLevel l).switch = s.switch := rfl
@[simp] theorem State.enterLevel_reentry (s : State) (l : Level) : (s.enterLevel l).reentry = s.reentry := rfl
@[simp] theorem State.enterLevel_cur (s : State) (l : Level) : (s.enterLevel l).cur = l := rfl
@[simp] theorem State.enterLevel_idle (s : State) (l : Level) : (s.enterLevel l).idle = false := rfl
@[simp] theorem State.enterLevel_inputs (s : State) (l : Level) : (s.enterLevel l).inputs = s.inputs := rfl
@[simp] theorem State.enterLevel_busy (s : State) (l : Level) : (s.enterLevel l).busy = s.busy := rfl
@[simp] theorem State.enterLevel_outputs (s : State) (l : Level) : (s.enterLevel l).outputs = s.outputs := rfl
@[simp] theorem State.enterLevel_env (s : State) (l : Level) : (s.enterLevel l).env = s.env := rfl
@[simp] theorem State.enterLevel_draws (s : State) (l : Level) : (s.enterLevel l).draws = s.draws := rfl
@[simp] theorem State.enterLevel_params (s : State) (l : Level) : (s.enterLevel l).params = s.params := rfl

/-! Register A is replaced. -/

@[simp] theorem State.put_a_a (s : State) (v : Word) : (s.put .a v).a = v := rfl
@[simp] theorem State.put_a_b (s : State) (v : Word) : (s.put .a v).b = s.b := rfl
@[simp] theorem State.put_a_r (s : State) (v : Word) : (s.put .a v).r = s.r := rfl
@[simp] theorem State.put_a_ov (s : State) (v : Word) : (s.put .a v).ov = s.ov := rfl
@[simp] theorem State.put_a_seq (s : State) (v : Word) : (s.put .a v).seq = s.seq := rfl
@[simp] theorem State.put_a_lock (s : State) (v : Word) : (s.put .a v).lock = s.lock := rfl
@[simp] theorem State.put_a_fast (s : State) (v : Word) : (s.put .a v).fast = s.fast := rfl
@[simp] theorem State.put_a_main (s : State) (v : Word) : (s.put .a v).main = s.main := rfl
@[simp] theorem State.put_a_pcr (s : State) (v : Word) : (s.put .a v).pcr = s.pcr := rfl
@[simp] theorem State.put_a_stim (s : State) (v : Word) : (s.put .a v).stim = s.stim := rfl
@[simp] theorem State.put_a_switch (s : State) (v : Word) : (s.put .a v).switch = s.switch := rfl
@[simp] theorem State.put_a_reentry (s : State) (v : Word) : (s.put .a v).reentry = s.reentry := rfl
@[simp] theorem State.put_a_cur (s : State) (v : Word) : (s.put .a v).cur = s.cur := rfl
@[simp] theorem State.put_a_idle (s : State) (v : Word) : (s.put .a v).idle = s.idle := rfl
@[simp] theorem State.put_a_inputs (s : State) (v : Word) : (s.put .a v).inputs = s.inputs := rfl
@[simp] theorem State.put_a_busy (s : State) (v : Word) : (s.put .a v).busy = s.busy := rfl
@[simp] theorem State.put_a_outputs (s : State) (v : Word) : (s.put .a v).outputs = s.outputs := rfl
@[simp] theorem State.put_a_env (s : State) (v : Word) : (s.put .a v).env = s.env := rfl
@[simp] theorem State.put_a_draws (s : State) (v : Word) : (s.put .a v).draws = s.draws := rfl
@[simp] theorem State.put_a_params (s : State) (v : Word) : (s.put .a v).params = s.params := rfl

/-! Register B is replaced. -/

@[simp] theorem State.put_b_a (s : State) (v : Word) : (s.put .b v).a = s.a := rfl
@[simp] theorem State.put_b_b (s : State) (v : Word) : (s.put .b v).b = v := rfl
@[simp] theorem State.put_b_r (s : State) (v : Word) : (s.put .b v).r = s.r := rfl
@[simp] theorem State.put_b_ov (s : State) (v : Word) : (s.put .b v).ov = s.ov := rfl
@[simp] theorem State.put_b_seq (s : State) (v : Word) : (s.put .b v).seq = s.seq := rfl
@[simp] theorem State.put_b_lock (s : State) (v : Word) : (s.put .b v).lock = s.lock := rfl
@[simp] theorem State.put_b_fast (s : State) (v : Word) : (s.put .b v).fast = s.fast := rfl
@[simp] theorem State.put_b_main (s : State) (v : Word) : (s.put .b v).main = s.main := rfl
@[simp] theorem State.put_b_pcr (s : State) (v : Word) : (s.put .b v).pcr = s.pcr := rfl
@[simp] theorem State.put_b_stim (s : State) (v : Word) : (s.put .b v).stim = s.stim := rfl
@[simp] theorem State.put_b_switch (s : State) (v : Word) : (s.put .b v).switch = s.switch := rfl
@[simp] theorem State.put_b_reentry (s : State) (v : Word) : (s.put .b v).reentry = s.reentry := rfl
@[simp] theorem State.put_b_cur (s : State) (v : Word) : (s.put .b v).cur = s.cur := rfl
@[simp] theorem State.put_b_idle (s : State) (v : Word) : (s.put .b v).idle = s.idle := rfl
@[simp] theorem State.put_b_inputs (s : State) (v : Word) : (s.put .b v).inputs = s.inputs := rfl
@[simp] theorem State.put_b_busy (s : State) (v : Word) : (s.put .b v).busy = s.busy := rfl
@[simp] theorem State.put_b_outputs (s : State) (v : Word) : (s.put .b v).outputs = s.outputs := rfl
@[simp] theorem State.put_b_env (s : State) (v : Word) : (s.put .b v).env = s.env := rfl
@[simp] theorem State.put_b_draws (s : State) (v : Word) : (s.put .b v).draws = s.draws := rfl
@[simp] theorem State.put_b_params (s : State) (v : Word) : (s.put .b v).params = s.params := rfl

/-! Register R is replaced. -/

@[simp] theorem State.put_r_a (s : State) (v : Word) : (s.put .r v).a = s.a := rfl
@[simp] theorem State.put_r_b (s : State) (v : Word) : (s.put .r v).b = s.b := rfl
@[simp] theorem State.put_r_r (s : State) (v : Word) : (s.put .r v).r = v := rfl
@[simp] theorem State.put_r_ov (s : State) (v : Word) : (s.put .r v).ov = s.ov := rfl
@[simp] theorem State.put_r_seq (s : State) (v : Word) : (s.put .r v).seq = s.seq := rfl
@[simp] theorem State.put_r_lock (s : State) (v : Word) : (s.put .r v).lock = s.lock := rfl
@[simp] theorem State.put_r_fast (s : State) (v : Word) : (s.put .r v).fast = s.fast := rfl
@[simp] theorem State.put_r_main (s : State) (v : Word) : (s.put .r v).main = s.main := rfl
@[simp] theorem State.put_r_pcr (s : State) (v : Word) : (s.put .r v).pcr = s.pcr := rfl
@[simp] theorem State.put_r_stim (s : State) (v : Word) : (s.put .r v).stim = s.stim := rfl
@[simp] theorem State.put_r_switch (s : State) (v : Word) : (s.put .r v).switch = s.switch := rfl
@[simp] theorem State.put_r_reentry (s : State) (v : Word) : (s.put .r v).reentry = s.reentry := rfl
@[simp] theorem State.put_r_cur (s : State) (v : Word) : (s.put .r v).cur = s.cur := rfl
@[simp] theorem State.put_r_idle (s : State) (v : Word) : (s.put .r v).idle = s.idle := rfl
@[simp] theorem State.put_r_inputs (s : State) (v : Word) : (s.put .r v).inputs = s.inputs := rfl
@[simp] theorem State.put_r_busy (s : State) (v : Word) : (s.put .r v).busy = s.busy := rfl
@[simp] theorem State.put_r_outputs (s : State) (v : Word) : (s.put .r v).outputs = s.outputs := rfl
@[simp] theorem State.put_r_env (s : State) (v : Word) : (s.put .r v).env = s.env := rfl
@[simp] theorem State.put_r_draws (s : State) (v : Word) : (s.put .r v).draws = s.draws := rfl
@[simp] theorem State.put_r_params (s : State) (v : Word) : (s.put .r v).params = s.params := rfl

@[simp] theorem State.get_a (s : State) : s.get .a = s.a := rfl
@[simp] theorem State.get_b (s : State) : s.get .b = s.b := rfl
@[simp] theorem State.get_r (s : State) : s.get .r = s.r := rfl

/-! The stores and their sizes under the updates that leave them alone. -/

theorem State.size_eq (s t : State) (h : t.params = s.params) (n : StoreName) : t.size n = s.size n := by
  cases n <;> simp [State.size, h]

@[simp] theorem State.advance_size (s : State) (n : StoreName) : (s.advance).size n = s.size n := by cases n <;> simp [State.size]
@[simp] theorem State.advance_inRange (s : State) (q : Place) : (s.advance).inRange q = s.inRange q := by simp [State.inRange]
@[simp] theorem State.advance_peek (s : State) (q : Place) : (s.advance).peek q = s.peek q := by
  obtain ⟨_ | _, _⟩ := q <;> simp [State.peek, State.memory]
@[simp] theorem State.advance_read (s : State) (q : Place) : (s.advance).read q = s.read q := by simp [State.read]
@[simp] theorem State.setOv_size (s : State) (o : Bool) (n : StoreName) : (s.setOv o).size n = s.size n := by cases n <;> simp [State.size]
@[simp] theorem State.setOv_inRange (s : State) (o : Bool) (q : Place) : (s.setOv o).inRange q = s.inRange q := by simp [State.inRange]
@[simp] theorem State.setOv_peek (s : State) (o : Bool) (q : Place) : (s.setOv o).peek q = s.peek q := by
  obtain ⟨_ | _, _⟩ := q <;> simp [State.peek, State.memory]
@[simp] theorem State.setOv_read (s : State) (o : Bool) (q : Place) : (s.setOv o).read q = s.read q := by simp [State.read]
@[simp] theorem State.drawOv_size (s : State) (o : Bool) (n : StoreName) : (s.drawOv o).size n = s.size n := by cases n <;> simp [State.size]
@[simp] theorem State.drawOv_inRange (s : State) (o : Bool) (q : Place) : (s.drawOv o).inRange q = s.inRange q := by simp [State.inRange]
@[simp] theorem State.drawOv_peek (s : State) (o : Bool) (q : Place) : (s.drawOv o).peek q = s.peek q := by
  obtain ⟨_ | _, _⟩ := q <;> simp [State.peek, State.memory]
@[simp] theorem State.drawOv_read (s : State) (o : Bool) (q : Place) : (s.drawOv o).read q = s.read q := by simp [State.read]
@[simp] theorem State.poke_size (s : State) (p : Place) (v : Word) (n : StoreName) : (s.poke p v).size n = s.size n := by cases n <;> simp [State.size]
@[simp] theorem State.poke_inRange (s : State) (p : Place) (v : Word) (q : Place) : (s.poke p v).inRange q = s.inRange q := by simp [State.inRange]

end Sys2Proof.Machine
end

