-- ==== Sys2Proof/Laws/Memory.lean ====
section
/-!
SUPPORT. The laws of the stores: reading after writing, and that every operation keeps the canonical form.
-/

namespace Sys2Proof.Machine

/-! ## One store -/

theorem Memory.read_write_same (m : Memory) (k : Nat) (v : Word) : (m.write k v).read k = some v := by
  induction m with
  | nil => simp [Memory.write, Memory.read]
  | cons c rest ih =>
    obtain ⟨j, w⟩ := c
    unfold Memory.write
    split
    · simp [Memory.read]
    · split
      · simp [Memory.read]
      · simp [Memory.read, *]

theorem Memory.read_write_other (m : Memory) (k j : Nat) (v : Word) (h : j ≠ k) :
    (m.write k v).read j = m.read j := by
  induction m with
  | nil => simp [Memory.write, Memory.read, h]
  | cons c rest ih =>
    obtain ⟨i, w⟩ := c
    unfold Memory.write
    split
    · simp [Memory.read, h]
    · split
      · rename_i e
        simp [Memory.read, h, ← e]
      · simp [Memory.read, ih]

/-- A store is canonical exactly when its addresses are strictly rising. -/
theorem Memory.wf_iff (m : Memory) : m.wf = true ↔ m.Pairwise (fun c d => c.1 < d.1) := by
  induction m with
  | nil => simp [Memory.wf]
  | cons c rest ih =>
    cases rest with
    | nil => simp [Memory.wf]
    | cons d rest =>
      rw [Memory.wf, Bool.and_eq_true, ih, List.pairwise_cons (a := c), decide_eq_true_iff]
      refine ⟨fun ⟨h, p⟩ => ⟨fun e he => ?_, p⟩, fun ⟨h, p⟩ => ⟨h d (by simp), p⟩⟩
      rcases List.mem_cons.1 he with rfl | he
      · exact h
      · exact h.trans ((List.pairwise_cons.1 p).1 e he)

theorem Memory.mem_write (m : Memory) (k : Nat) (v : Word) (c : Nat × Word) (h : c ∈ m.write k v) :
    c = (k, v) ∨ c ∈ m := by
  induction m with
  | nil => simpa [Memory.write] using h
  | cons d rest ih =>
    unfold Memory.write at h
    split at h
    · simpa using h
    · split at h
      · rcases List.mem_cons.1 h with h | h
        · exact .inl h
        · exact .inr (List.mem_cons_of_mem _ h)
      · rcases List.mem_cons.1 h with h | h
        · exact .inr (by simp [h])
        · exact (ih h).imp id (List.mem_cons_of_mem _)

/-- A write keeps the canonical form. -/
theorem Memory.wf_write (m : Memory) (k : Nat) (v : Word) (h : m.wf = true) : (m.write k v).wf = true := by
  rw [Memory.wf_iff] at *
  induction m with
  | nil => simp [Memory.write]
  | cons c rest ih =>
    obtain ⟨j, w⟩ := c
    obtain ⟨hj, hr⟩ := List.pairwise_cons.1 h
    unfold Memory.write
    split
    · rename_i lt
      refine List.pairwise_cons.2 ⟨fun e he => ?_, h⟩
      rcases List.mem_cons.1 he with rfl | he
      · exact lt
      · exact lt.trans (hj e he)
    · split
      · rename_i e
        subst e
        exact List.pairwise_cons.2 ⟨hj, hr⟩
      · refine List.pairwise_cons.2 ⟨fun e he => ?_, ih hr⟩
        rcases Memory.mem_write _ _ _ _ he with rfl | he
        · show j < k
          omega
        · exact hj e he

/-- A write below the size keeps every address below it. -/
theorem Memory.below_write (m : Memory) (k n : Nat) (v : Word) (h : m.below n = true) (hk : k < n) :
    (m.write k v).below n = true := by
  simp only [Memory.below, List.all_eq_true, decide_eq_true_eq] at *
  intro c hc
  rcases Memory.mem_write _ _ _ _ hc with rfl | hc
  · exact hk
  · exact h c hc

/-! ## Both stores -/

theorem State.peek_poke_same (s : State) (p : Place) (v : Word) : (s.poke p v).peek p = some v := by
  obtain ⟨_ | _, _⟩ := p <;> simp [State.peek, State.memory, Memory.read_write_same]

theorem State.peek_poke_other (s : State) (p q : Place) (v : Word) (h : q ≠ p) : (s.poke p v).peek q = s.peek q := by
  obtain ⟨a, i⟩ := p
  obtain ⟨b, j⟩ := q
  cases a <;> cases b <;> simp [State.peek, State.memory] at * <;> exact Memory.read_write_other _ _ _ _ h

/-- Replacing a word stores that word and no other. -/
theorem State.poke_storedOnly (s : State) (p : Place) (v : Word) : StoredOnly s (s.poke p v) p v :=
  ⟨s.peek_poke_same p v, fun q h => s.peek_poke_other p q v h⟩

/-- States that agree on both stores hold the same words. -/
theorem State.peek_congr {s t : State} (hf : t.fast = s.fast) (hm : t.main = s.main) (q : Place) :
    t.peek q = s.peek q := by
  obtain ⟨_ | _, _⟩ := q <;> simp [State.peek, State.memory, hf, hm]

/-- What a read that succeeds says. -/
theorem State.read_ok_iff (s : State) (p : Place) (w : Word) : s.read p = .ok w ↔ s.Holds p w := by
  unfold State.read State.Holds
  split
  · split <;> simp_all
  · simp_all

/-- What a write that succeeds says. -/
theorem State.write_ok_iff (s t : State) (p : Place) (v : Word) :
    s.write p v = .ok t ↔ s.inRange p = true ∧ t = s.poke p v := by
  unfold State.write
  split
  · next h => simp [h, eq_comm]
  · next h => simp [h]

/-- What a jump that is taken says. -/
theorem State.jump_ok_iff (s t : State) (p : Place) :
    s.jump p = .ok t ↔ s.inRange p = true ∧ t = { s with seq := p } := by
  unfold State.jump
  split
  · next h => simp [h, eq_comm]
  · next h => simp [h]

/-! ## The canonical form of both stores -/

/-- Both stores are in canonical form. -/
abbrev State.StoresCanonical (s : State) : Prop := s.fast.wf = true ∧ s.main.wf = true

/-- Replacing a word keeps both stores canonical. -/
theorem State.poke_canonical {s : State} (p : Place) (v : Word) (h : s.StoresCanonical) : (s.poke p v).StoresCanonical := by
  obtain ⟨_ | _, x⟩ := p
  · exact ⟨Memory.wf_write _ _ _ h.1, h.2⟩
  · exact ⟨h.1, Memory.wf_write _ _ _ h.2⟩

/-- A checked write keeps both stores canonical. -/
theorem State.write_canonical {s t : State} {p : Place} {v : Word} (h : s.StoresCanonical) (w : s.write p v = .ok t) :
    t.StoresCanonical := by
  obtain ⟨-, rfl⟩ := (State.write_ok_iff ..).1 w
  exact s.poke_canonical p v h

/-- An autonomous transfer keeps both stores canonical. -/
theorem State.transferWord_canonical {s : State} (p : Place × Word) (h : s.StoresCanonical) :
    (s.transferWord p).StoresCanonical := by
  unfold State.transferWord
  split
  · exact s.poke_canonical _ _ h
  · exact h

/-- The launch state's stores are canonical. -/
theorem State.reset_canonical : State.reset.StoresCanonical := by decide

/-- A state with a word placed for the next fetch has canonical stores where the state had. -/
theorem State.withFetchWord_canonical {s : State} (nbits w : Nat) (h : s.StoresCanonical) :
    (s.withFetchWord nbits w).StoresCanonical := by
  unfold State.withFetchWord
  split
  · exact State.poke_canonical _ _ h
  · exact s.poke_canonical _ _ h

end Sys2Proof.Machine
end

