-- ==== Sys2Proof/Laws/Rules.lean ====
section
/-!
SUPPORT. For each shared rule of the instructions, what it says when it answers a state: the lemmas that proofs cite instead
of unfolding a rule.
-/

namespace Sys2Proof.Machine

/-- A sequence of two parts answers when both do. -/
theorem Result.bind_ok {α β : Type} (x : Result α) (k : α → Result β) (t : β) :
    (x >>= k) = .ok t ↔ ∃ v, x = .ok v ∧ k v = .ok t := by
  cases x with
  | error e => simp [bind, Except.bind]
  | ok v => simp [bind, Except.bind]

/-- A part that answers a value answers that value. -/
theorem Result.ok_iff {α : Type} (x t : α) : (Except.ok x : Result α) = .ok t ↔ t = x := by
  rw [Except.ok.injEq, eq_comm]

/-- The outcome of a stop is no next state. -/
theorem Stop.outcome_ne_next (e : Stop) (t : State) : e.outcome ≠ .next t := by cases e <;> simp [Stop.outcome]

/-- An instruction obeyed completes exactly when its rule answers on the advanced state. -/
theorem obey_next_iff (f : Fields) (s t : State) (rule : State → Result State) :
    obey f s rule = .next t ↔ ∃ u, rule s.advance = .ok u ∧ t = { u with lock := f.l } := by
  unfold obey
  cases h : rule s.advance with
  | error e => simpa using Stop.outcome_ne_next e t
  | ok u => simp [eq_comm]

/-- A rule that answers gives the instruction's next state. -/
theorem obey_of_ok {f : Fields} {s u : State} {rule : State → Result State} (h : rule s.advance = .ok u) :
    obey f s rule = .next { u with lock := f.l } := (obey_next_iff f s _ rule).2 ⟨u, h, rfl⟩

/-- A rule that stops gives the instruction's stop. -/
theorem obey_of_error {f : Fields} {s : State} {rule : State → Result State} {e : Stop} (h : rule s.advance = .error e) :
    obey f s rule = e.outcome := by simp [obey, h]

/-! ## Operands, fetch -/

theorem literalOrMain_ok_iff (f : Fields) (s : State) (v : Word) :
    literalOrMain f s = .ok v ↔ (f.m = false ∧ v = s.modifiedN f) ∨ (f.m = true ∧ s.Holds (mainPlace f s) v) := by
  unfold literalOrMain
  cases f.m
  · simp [eq_comm]
  · simp [State.read_ok_iff]

theorem mainOnly_ok_iff (f : Fields) (s : State) (p : Place) :
    mainOnly f s = .ok p ↔ f.m = true ∧ p = mainPlace f s := by
  unfold mainOnly
  cases f.m <;> simp [eq_comm]

theorem fastOrIndirect_ok_iff (f : Fields) (s : State) (p : Place) :
    fastOrIndirect f s = .ok p ↔ (f.m = false ∧ p = fastPlace f s) ∨
      (f.m = true ∧ ∃ w, s.Holds (fastPlace f s) w ∧ p = ⟨.main, addr19 w⟩) := by
  unfold fastOrIndirect
  cases f.m
  · simp [eq_comm]
  · simp only [if_true, Bool.true_eq_false, false_and, true_and, false_or, ← State.read_ok_iff]
    cases s.read (fastPlace f s) <;> simp [eq_comm]

theorem fetch_ok_iff (s : State) (w : Word) : s.fetch = .ok w ↔ s.Holds s.seq w := by
  unfold State.fetch
  split
  · next h => simp [State.Holds, State.inRange, h]
  · exact State.read_ok_iff ..

/-- A step either idles at the boundary or obeys the word fetched there. -/
theorem step_next (s t : State) (h : step s = .next t) :
    (s.boundary.idle = true ∧ t = s.boundary) ∨
      ∃ w, s.boundary.idle = false ∧ s.boundary.Holds s.boundary.seq w ∧ exec (decode w) s.boundary = .next t := by
  unfold step at h
  cases hi : s.boundary.idle with
  | true => simp only [hi, if_true, Host.Outcome.next.injEq] at h; exact .inl ⟨rfl, h.symm⟩
  | false =>
    simp only [hi, Bool.false_eq_true, if_false] at h
    cases hf : s.boundary.fetch with
    | error e => rw [hf] at h; exact absurd h (Stop.outcome_ne_next e t)
    | ok w => rw [hf] at h; exact .inr ⟨w, rfl, (fetch_ok_iff _ _).1 hf, h⟩

/-! ## Arithmetic, loads and stores -/

theorem operandAt_ok_iff (loc : Fields → State → Result Place) (f : Fields) (s : State) (v : Word) :
    operandAt loc f s = .ok v ↔ ∃ p, loc f s = .ok p ∧ s.read p = .ok v := by
  unfold operandAt
  cases loc f s <;> simp

theorem toRegister_ok_iff (g : Reg) (flag : Bool → State → State) (op : Int → Int → Int)
    (operand : Fields → State → Result Word) (f : Fields) (s t : State) :
    toRegister g flag op operand f s = .ok t ↔ ∃ v, operand f s = .ok v ∧
      t = flag (outOfRange (op (sint (s.get g)) (sint v))) (s.put g (word (op (sint (s.get g)) (sint v)))) := by
  simp only [toRegister, Result.bind_ok, Result.ok_iff]

theorem loadReg_ok_iff (g : Reg) (operand : Fields → State → Result Word) (f : Fields) (s t : State) :
    loadReg g operand f s = .ok t ↔ ∃ v, operand f s = .ok v ∧ t = s.put g v := by
  simp only [loadReg, Result.bind_ok, Result.ok_iff]

theorem toStore_ok_iff (g : Reg) (flag : Bool → State → State) (op : Int → Int → Int)
    (loc : Fields → State → Result Place) (f : Fields) (s t : State) :
    toStore g flag op loc f s = .ok t ↔ ∃ p v, loc f s = .ok p ∧ s.Holds p v ∧
      t = flag (outOfRange (op (sint (s.get g)) (sint v))) (s.poke p (word (op (sint (s.get g)) (sint v)))) := by
  simp only [toStore, Result.bind_ok, State.read_ok_iff, State.write_ok_iff, Except.ok.injEq]
  constructor
  · rintro ⟨p, hp, v, hv, u, ⟨-, rfl⟩, rfl⟩
    exact ⟨p, v, hp, hv, rfl⟩
  · rintro ⟨p, v, hp, hv, rfl⟩
    exact ⟨p, hp, v, hv, _, ⟨hv.1, rfl⟩, rfl⟩

theorem storeReg_ok_iff (g : Reg) (loc : Fields → State → Result Place) (f : Fields) (s t : State) :
    storeReg g loc f s = .ok t ↔ ∃ p, loc f s = .ok p ∧ s.inRange p = true ∧ t = s.poke p (s.get g) := by
  simp only [storeReg, Result.bind_ok, State.write_ok_iff]

theorem countStore_ok_iff (k : Int) (loc : Fields → State → Result Place) (f : Fields) (s t : State) :
    countStore k loc f s = .ok t ↔ ∃ p v, loc f s = .ok p ∧ s.Holds p v ∧
      t = (s.poke p (word (sint v + k))).drawOv (outOfRange (sint v + k)) := by
  simp only [countStore, Result.bind_ok, State.read_ok_iff, State.write_ok_iff, Except.ok.injEq]
  constructor
  · rintro ⟨p, hp, v, hv, u, ⟨-, rfl⟩, rfl⟩
    exact ⟨p, v, hp, hv, rfl⟩
  · rintro ⟨p, v, hp, hv, rfl⟩
    exact ⟨p, hp, v, hv, _, ⟨hv.1, rfl⟩, rfl⟩

theorem andToA_ok_iff (loc : Fields → State → Result Place) (f : Fields) (s t : State) :
    andToA loc f s = .ok t ↔ ∃ v, operandAt loc f s = .ok v ∧ t = s.put .a (s.a &&& v) := by
  simp only [andToA, Result.bind_ok, Result.ok_iff]

theorem andToStore_ok_iff (loc : Fields → State → Result Place) (f : Fields) (s t : State) :
    andToStore loc f s = .ok t ↔ ∃ p v, loc f s = .ok p ∧ s.Holds p v ∧ t = s.poke p (s.a &&& v) := by
  simp only [andToStore, Result.bind_ok, State.read_ok_iff, State.write_ok_iff]
  constructor
  · rintro ⟨p, hp, v, hv, -, rfl⟩
    exact ⟨p, v, hp, hv, rfl⟩
  · rintro ⟨p, v, hp, hv, rfl⟩
    exact ⟨p, hp, v, hv, hv.1, rfl⟩

/-! ## Jumps -/

theorem jumpIf_ok_iff (taken : State → Bool) (f : Fields) (s t : State) :
    jumpIf taken f s = .ok t ↔
      (taken s = true ∧ s.inRange (directPlace f s) = true ∧ t = { s with seq := directPlace f s }) ∨
      (taken s = false ∧ t = s) := by
  unfold jumpIf
  cases taken s
  · simp [@eq_comm State s t]
  · simp [State.jump_ok_iff]

theorem countAndJump_ok_iff (k : Int) (f : Fields) (s t : State) :
    countAndJump k f s = .ok t ↔
      (s.b ≠ 0 ∧ s.inRange (directPlace f s) = true ∧
        t = ({ s with seq := directPlace f s, b := word (sint s.b + k) } : State).drawOv (outOfRange (sint s.b + k))) ∨
      (s.b = 0 ∧ t = s) := by
  unfold countAndJump
  split
  · next h => simp [h, @eq_comm State s t]
  · next h =>
    simp only [Result.bind_ok, State.jump_ok_iff, Except.ok.injEq, h, ne_eq, not_false_eq_true, true_and, false_and,
      or_false]
    constructor
    · rintro ⟨u, ⟨hr, rfl⟩, rfl⟩
      exact ⟨hr, rfl⟩
    · rintro ⟨hr, rfl⟩
      exact ⟨_, ⟨hr, rfl⟩, rfl⟩

theorem enterSubroutine_ok_iff (f : Fields) (s t : State) :
    enterSubroutine f s = .ok t ↔
      s.inRange (directPlace f s) = true ∧ t = { s with seq := directPlace f s, b := imageOf s.seq } := by
  simp only [enterSubroutine, Result.bind_ok, State.jump_ok_iff, Except.ok.injEq]
  constructor
  · rintro ⟨u, ⟨hr, rfl⟩, rfl⟩
    exact ⟨hr, rfl⟩
  · rintro ⟨hr, rfl⟩
    exact ⟨_, ⟨hr, rfl⟩, rfl⟩

theorem jumpOnOverflow_ok_iff (f : Fields) (s t : State) :
    jumpOnOverflow f s = .ok t ↔
      (s.ov = true ∧ s.inRange (directPlace f s) = true ∧ t = { s with seq := directPlace f s, ov := false }) ∨
      (s.ov = false ∧ t = s) := by
  unfold jumpOnOverflow
  cases h : s.ov
  · simp [@eq_comm State s t]
  · simp only [if_true, Result.bind_ok, State.jump_ok_iff, Except.ok.injEq, true_and, Bool.true_eq_false, false_and,
      or_false]
    constructor
    · rintro ⟨u, ⟨hr, rfl⟩, rfl⟩
      exact ⟨hr, rfl⟩
    · rintro ⟨hr, rfl⟩
      exact ⟨_, ⟨hr, rfl⟩, rfl⟩

theorem jumpTo_ok_iff (target : Fields → State → Result Place) (f : Fields) (s t : State) :
    jumpTo target f s = .ok t ↔ ∃ p, target f s = .ok p ∧ s.inRange p = true ∧ t = { s with seq := p } := by
  simp only [jumpTo, Result.bind_ok, State.jump_ok_iff]

theorem breakTo_ok_iff (f : Fields) (s t : State) :
    breakTo f s = .ok t ↔ s.inRange (directPlace f s) = true ∧
      t = ({ s with seq := directPlace f s } : State).clearOwnStimulus.programBreak := by
  simp only [breakTo, Result.bind_ok, State.jump_ok_iff, Except.ok.injEq]
  constructor
  · rintro ⟨u, ⟨hr, rfl⟩, rfl⟩
    exact ⟨hr, rfl⟩
  · rintro ⟨hr, rfl⟩
    exact ⟨_, ⟨hr, rfl⟩, rfl⟩

/-! ## Group 6 -/

theorem shiftCount_ok_iff (f : Fields) (s : State) (c : Nat) :
    shiftCount f s = .ok c ↔ c = uint (s.modifiedN f) ∧ c < 1024 := by
  unfold shiftCount
  split
  · next h =>
    simp only [Except.ok.injEq]
    exact ⟨fun e => ⟨e.symm, e ▸ h⟩, fun e => e.1.symm⟩
  · next h =>
    simp only [reduceCtorEq, false_iff, not_and]
    exact fun e => e ▸ h

theorem doubleLength_ok_iff (a r : Word) (v : Int) :
    doubleLength a r = .ok v ↔ r.getLsbD 19 = false ∧ v = sint a * 2 ^ 19 + (addr19 r : Int) := by
  unfold doubleLength
  cases r.getLsbD 19 <;> simp [eq_comm]

theorem shiftA_ok_iff (f : Fields) (s t : State) :
    shiftA f s = .ok t ↔ ∃ c, shiftCount f s = .ok c ∧ t = { s with a := word ((uint s.a : Int) * 2 ^ c) } := by
  simp only [shiftA, Result.bind_ok, Result.ok_iff]

theorem shiftAArith_ok_iff (f : Fields) (s t : State) :
    shiftAArith f s = .ok t ↔ ∃ c, shiftCount f s = .ok c ∧ outOfRange (sint s.a * 2 ^ c) = false ∧
      t = { s with a := word (sint s.a * 2 ^ c) } := by
  simp only [shiftAArith, Result.bind_ok]
  refine exists_congr fun c => and_congr_right fun _ => ?_
  cases outOfRange (sint s.a * 2 ^ c) <;> simp [eq_comm]

theorem shiftAR_ok_iff (f : Fields) (s t : State) :
    shiftAR f s = .ok t ↔ ∃ c v, shiftCount f s = .ok c ∧ doubleLength s.a s.r = .ok v ∧
      fitsDouble (v * 2 ^ c) = true ∧ t = s.setDouble (v * 2 ^ c) := by
  simp only [shiftAR, Result.bind_ok, exists_and_left]
  refine exists_congr fun c => and_congr_right fun _ => exists_congr fun v => and_congr_right fun _ => ?_
  cases fitsDouble (v * 2 ^ c) <;> simp [eq_comm]

theorem rootOfSum_ok_iff (loc : Fields → State → Result Place) (f : Fields) (s t : State) :
    rootOfSum loc f s = .ok t ↔ ∃ m, operandAt loc f s = .ok m ∧ 0 ≤ sint s.a + sint m ∧ sint s.a + sint m ≤ 2 ^ 19 - 1 ∧
      t = { s with a := word (floorSqrt ((sint s.a + sint m).toNat * 2 ^ 19)) } := by
  simp only [rootOfSum, Result.bind_ok]
  refine exists_congr fun m => and_congr_right fun _ => ?_
  split
  · next h =>
    simp only [reduceCtorEq, false_iff]
    rintro ⟨h0, h1, -⟩
    omega
  · next h =>
    push Not at h
    simp only [Result.ok_iff, h.1, h.2, true_and]

theorem product_ok_iff (loc : Fields → State → Result Place) (f : Fields) (s : State) (v : Int) :
    product loc f s = .ok v ↔ ∃ m, operandAt loc f s = .ok m ∧ sint s.a * sint m ≠ 2 ^ 38 ∧ v = sint s.a * sint m := by
  simp only [product, Result.bind_ok]
  refine exists_congr fun m => and_congr_right fun _ => ?_
  split
  · next h => simp [h]
  · next h => simp only [Except.ok.injEq, ne_eq, h, not_false_eq_true, true_and, eq_comm]

theorem multiplyDouble_ok_iff (loc : Fields → State → Result Place) (f : Fields) (s t : State) :
    multiplyDouble loc f s = .ok t ↔ ∃ v, product loc f s = .ok v ∧ t = s.setDouble v := by
  simp only [multiplyDouble, Result.bind_ok, Result.ok_iff]

theorem multiplySingle_ok_iff (loc : Fields → State → Result Place) (f : Fields) (s t : State) :
    multiplySingle loc f s = .ok t ↔ ∃ v, product loc f s = .ok v ∧ t = { s with a := word (singleLength v), r := 0 } := by
  simp only [multiplySingle, Result.bind_ok, Result.ok_iff]

theorem divide_ok_iff (v d : Int) (s : State) (q : Int) :
    divide v d s = .ok q ↔ d ≠ 0 ∧ |v| < |d| * 2 ^ 19 ∧ q = drawQuotient v d s := by
  unfold divide
  split
  · next h => simp [h]
  · next h =>
    split
    · next g => simp only [reduceCtorEq, false_iff, not_and]; exact fun _ l => absurd l (not_lt.2 g)
    · next g => simp only [Except.ok.injEq, ne_eq, h, not_false_eq_true, true_and, not_le.1 g, eq_comm]

theorem divideDouble_ok_iff (loc : Fields → State → Result Place) (f : Fields) (s t : State) :
    divideDouble loc f s = .ok t ↔ ∃ d v q, operandAt loc f s = .ok d ∧ doubleLength s.a s.r = .ok v ∧
      divide v (sint d) s = .ok q ∧
      t = ({ s with r := word q, a := word (v - q * sint d) } : State).countDivision v (sint d) := by
  simp only [divideDouble, Result.bind_ok, Result.ok_iff, exists_and_left]

theorem divideSingle_ok_iff (loc : Fields → State → Result Place) (f : Fields) (s t : State) :
    divideSingle loc f s = .ok t ↔ ∃ d v q, operandAt loc f s = .ok d ∧ doubleLength s.a s.r = .ok v ∧
      divide v (sint d) s = .ok q ∧
      t = ({ s with a := word q, r := 0 } : State).countDivision v (sint d) := by
  simp only [divideSingle, Result.bind_ok, Result.ok_iff, exists_and_left]

/-! ## Devices -/

theorem deviceNumber_ok (f : Fields) (s : State) (d : Device) (h : deviceNumber f s = .ok d) :
    d.val = (s.modifiedN f).toNat ∧ s.hasDevice d = true := by
  unfold deviceNumber at h
  split at h
  · split at h
    · cases h; exact ⟨rfl, by assumption⟩
    · cases h
  · cases h

/-- An input changes nothing but the device's data. -/
theorem input_frame (d : Device) (s u : State) (w : Word) (h : s.input d = some (w, u)) :
    ∃ x, u = { s with inputs := x } := by
  unfold State.input at h
  split at h
  · cases h; exact ⟨_, rfl⟩
  · split at h
    · cases h
    · split at h
      · cases h
      · cases h; exact ⟨_, rfl⟩

/-- An output changes nothing but the PCR or the words output. -/
theorem output_frame (d : Device) (s u : State) (h : s.output d = some u) :
    ∃ x y, u = { s with outputs := x, pcr := y } := by
  unfold State.output at h
  split at h
  · cases h; exact ⟨_, _, rfl⟩
  · split at h
    · cases h
    · cases h; exact ⟨_, _, rfl⟩

theorem inputWith_next_iff (use : Word → State → State) (f : Fields) (s t : State) :
    inputWith use f s = .next t ↔ ∃ d, deviceNumber f s.advance = .ok d ∧
      ((s.advance.input d = none ∧ t = s) ∨
        ∃ w u, s.advance.input d = some (w, u) ∧ t = { use w u with lock := f.l }) := by
  unfold inputWith
  cases deviceNumber f s.advance with
  | error e => simpa using Stop.outcome_ne_next e t
  | ok d =>
    cases h : s.advance.input d with
    | none => simp [hold, h, eq_comm]
    | some wu =>
      simp only [Host.Outcome.next.injEq, Except.ok.injEq, exists_eq_left', h, reduceCtorEq, false_and, Option.some.injEq, false_or]
      constructor
      · rintro rfl
        exact ⟨wu.1, wu.2, rfl, rfl⟩
      · rintro ⟨w, u, rfl, rfl⟩
        rfl

theorem outputA_next_iff (f : Fields) (s t : State) :
    outputA f s = .next t ↔ ∃ d, deviceNumber f s.advance = .ok d ∧
      ((s.advance.output d = none ∧ t = s) ∨ ∃ u, s.advance.output d = some u ∧ t = { u with lock := f.l }) := by
  unfold outputA
  cases deviceNumber f s.advance with
  | error e => simpa using Stop.outcome_ne_next e t
  | ok d =>
    cases h : s.advance.output d with
    | none => simp [hold, h, eq_comm]
    | some u => simp [h, eq_comm]

/-! ## Levels -/

/-- The level switch enters the best level, or idles with everything else unchanged. -/
theorem State.enterBest_cases (s : State) :
    (∃ l, s.best = some l ∧ s.enterBest = s.enterLevel l) ∨ (s.best = none ∧ s.enterBest = { s with idle := true }) := by
  unfold State.enterBest
  cases s.best <;> simp

/-- The level switching of step 1 does one of three things. -/
theorem State.settleLevel_cases (s : State) :
    (s.idle = true ∧ s.settleLevel = s.enterBest) ∨
      (s.idle = false ∧ s.breakDue = true ∧ s.settleLevel = s.programBreak) ∨
      (s.idle = false ∧ s.breakDue = false ∧ s.settleLevel = s) := by
  unfold State.settleLevel
  cases s.idle <;> cases s.breakDue <;> simp

end Sys2Proof.Machine
end

