-- ==== Sys2Proof/Laws/Arith.lean ====
section
/-!
SUPPORT. The square root by digits and the drawn quotient: what each computes.
-/

namespace Sys2Proof.Machine

/-- The digits below bit n bring the root to within one of the exact root. -/
theorem sqrtDigits_spec (x n root : Nat) (lo : root * root ≤ x) (hi : x < (root + 2 ^ n) * (root + 2 ^ n)) :
    sqrtDigits x n root * sqrtDigits x n root ≤ x ∧
      x < (sqrtDigits x n root + 1) * (sqrtDigits x n root + 1) := by
  induction n generalizing root with
  | zero => simpa [sqrtDigits] using ⟨lo, hi⟩
  | succ n ih =>
    unfold sqrtDigits
    split
    · next h => exact ih _ h (by rw [pow_succ] at hi; convert hi using 1; ring)
    · next h => exact ih _ lo (not_le.1 h)

/-- The integer square root of a number below 2^38. -/
theorem floorSqrt_spec (x : Nat) (h : x < 2 ^ 38) :
    floorSqrt x * floorSqrt x ≤ x ∧ x < (floorSqrt x + 1) * (floorSqrt x + 1) :=
  sqrtDigits_spec x 19 0 (by simp) (by norm_num at h ⊢; exact h)

/-- The square root of a number below 2^38 is below 2^19. -/
theorem floorSqrt_lt (x : Nat) (h : x < 2 ^ 38) : floorSqrt x < 2 ^ 19 := by
  by_contra c
  push Not at c
  have := Nat.mul_le_mul c c
  have := (floorSqrt_spec x h).1
  norm_num at *
  omega

/-- The truncated quotient meets the relation of R126. -/
theorem tdiv_meets (v d : Int) (hd : d ≠ 0) (hv : |v| < |d| * 2 ^ 19) :
    v = v.tdiv d * d + v.tmod d ∧ |v.tmod d| < |d| ∧ -2 ^ 19 ≤ v.tdiv d ∧ v.tdiv d ≤ 2 ^ 19 - 1 := by
  have e : v.tdiv d * d + v.tmod d = v := Int.tdiv_mul_add_tmod v d
  have m : |v.tmod d| < |d| := by
    rw [Int.abs_eq_natAbs, Int.abs_eq_natAbs, Int.natAbs_tmod]
    exact_mod_cast Nat.mod_lt _ (Int.natAbs_pos.2 hd)
  have q : |v.tdiv d| < 2 ^ 19 := by
    rw [Int.abs_eq_natAbs, Int.natAbs_tdiv]
    rw [Int.abs_eq_natAbs, Int.abs_eq_natAbs] at hv
    have : v.natAbs < d.natAbs * 2 ^ 19 := by exact_mod_cast hv
    exact_mod_cast Nat.div_lt_of_lt_mul this
  obtain ⟨q1, q2⟩ := abs_lt.1 q
  exact ⟨e.symm, m, by omega, by omega⟩

/-- The other quotient, where there is a choice, meets the relation of R126 too. -/
theorem awayQuotient_meets (v d : Int) (hd : d ≠ 0) (ho : divisionOpen v d = true) :
    |v - awayQuotient v d * d| < |d| ∧ -2 ^ 19 ≤ awayQuotient v d ∧ awayQuotient v d ≤ 2 ^ 19 - 1 := by
  simp only [divisionOpen, Bool.and_eq_true, decide_eq_true_eq] at ho
  obtain ⟨⟨hr, h1⟩, h2⟩ := ho
  refine ⟨?_, h1, h2⟩
  have e : v.tdiv d * d + v.tmod d = v := Int.tdiv_mul_add_tmod v d
  have m : |v.tmod d| < |d| := by
    rw [Int.abs_eq_natAbs, Int.abs_eq_natAbs, Int.natAbs_tmod]
    exact_mod_cast Nat.mod_lt _ (Int.natAbs_pos.2 hd)
  have up : 0 ≤ v → 0 ≤ v.tmod d := Int.tmod_nonneg d
  have down : v ≤ 0 → v.tmod d ≤ 0 := fun h => by
    have := Int.tmod_nonneg d (show 0 ≤ -v by omega)
    rw [Int.neg_tmod] at this
    omega
  generalize v.tmod d = r at *
  unfold awayQuotient
  split
  · next h =>
    rw [show v - (v.tdiv d + 1) * d = r - d by linarith]
    rcases lt_or_gt_of_ne hd with hn | hn
    · have : v < 0 := by nlinarith
      rw [abs_lt, abs_of_neg hn] at *
      omega
    · have : 0 < v := by nlinarith
      rw [abs_lt, abs_of_pos hn] at *
      omega
  · next h =>
    rw [show v - (v.tdiv d - 1) * d = r + d by linarith]
    rcases lt_or_gt_of_ne hd with hn | hn
    · have : 0 ≤ v := by nlinarith
      rw [abs_lt, abs_of_neg hn] at *
      omega
    · have : v ≤ 0 := by nlinarith
      rw [abs_lt, abs_of_pos hn] at *
      omega

/-- Whichever way the draw falls, the quotient meets the relation of R126. -/
theorem drawQuotient_meets (v d : Int) (s : State) (hd : d ≠ 0) (hv : |v| < |d| * 2 ^ 19) :
    |v - drawQuotient v d s * d| < |d| ∧ -2 ^ 19 ≤ drawQuotient v d s ∧ drawQuotient v d s ≤ 2 ^ 19 - 1 := by
  unfold drawQuotient
  split
  · next h => exact awayQuotient_meets v d hd (Bool.and_eq_true _ _ ▸ h).1
  · obtain ⟨e, m, q⟩ := tdiv_meets v d hd hv
    exact ⟨by rwa [show v - v.tdiv d * d = v.tmod d by omega], q⟩

/-- An exact division leaves no choice. -/
theorem drawQuotient_exact (q d : Int) (s : State) (hd : d ≠ 0) : drawQuotient (q * d) d s = q := by
  have o : divisionOpen (q * d) d = false := by simp [divisionOpen]
  simp [drawQuotient, o, Int.mul_tdiv_cancel q hd]

end Sys2Proof.Machine
end

