-- ==== Sys2Proof/Laws/PerInstr.lean ====
section
/-!
SUPPORT. Statements made per instruction: one lemma for each constructor of Instr.
-/

namespace Sys2Proof.Laws.FunctionCode

/-- An instruction is the one its own function code and fields name, and its code is none but its own: the opcode map and the
codes the encoder writes agree (R46, R54). -/
def Statement (i : Instr) : Prop := instrOf i.code i.fields = i ∧ ∀ f, (instrOf i.code f).code = i.code ∧ (instrOf i.code f).fields = f

theorem addB00 (f : Fields) : Statement (.addB00 f) := ⟨rfl, fun _ => ⟨rfl, rfl⟩⟩
theorem subB01 (f : Fields) : Statement (.subB01 f) := ⟨rfl, fun _ => ⟨rfl, rfl⟩⟩
theorem revB02 (f : Fields) : Statement (.revB02 f) := ⟨rfl, fun _ => ⟨rfl, rfl⟩⟩
theorem loadB03 (f : Fields) : Statement (.loadB03 f) := ⟨rfl, fun _ => ⟨rfl, rfl⟩⟩
theorem addBToStore04 (f : Fields) : Statement (.addBToStore04 f) := ⟨rfl, fun _ => ⟨rfl, rfl⟩⟩
theorem subBFromStore05 (f : Fields) : Statement (.subBFromStore05 f) := ⟨rfl, fun _ => ⟨rfl, rfl⟩⟩
theorem revBFromStore06 (f : Fields) : Statement (.revBFromStore06 f) := ⟨rfl, fun _ => ⟨rfl, rfl⟩⟩
theorem storeB07 (f : Fields) : Statement (.storeB07 f) := ⟨rfl, fun _ => ⟨rfl, rfl⟩⟩
theorem addA10 (f : Fields) : Statement (.addA10 f) := ⟨rfl, fun _ => ⟨rfl, rfl⟩⟩
theorem subA11 (f : Fields) : Statement (.subA11 f) := ⟨rfl, fun _ => ⟨rfl, rfl⟩⟩
theorem revA12 (f : Fields) : Statement (.revA12 f) := ⟨rfl, fun _ => ⟨rfl, rfl⟩⟩
theorem loadA13 (f : Fields) : Statement (.loadA13 f) := ⟨rfl, fun _ => ⟨rfl, rfl⟩⟩
theorem addAToStore14 (f : Fields) : Statement (.addAToStore14 f) := ⟨rfl, fun _ => ⟨rfl, rfl⟩⟩
theorem subAFromStore15 (f : Fields) : Statement (.subAFromStore15 f) := ⟨rfl, fun _ => ⟨rfl, rfl⟩⟩
theorem revAFromStore16 (f : Fields) : Statement (.revAFromStore16 f) := ⟨rfl, fun _ => ⟨rfl, rfl⟩⟩
theorem storeA17 (f : Fields) : Statement (.storeA17 f) := ⟨rfl, fun _ => ⟨rfl, rfl⟩⟩
theorem addB20 (f : Fields) : Statement (.addB20 f) := ⟨rfl, fun _ => ⟨rfl, rfl⟩⟩
theorem subB21 (f : Fields) : Statement (.subB21 f) := ⟨rfl, fun _ => ⟨rfl, rfl⟩⟩
theorem revB22 (f : Fields) : Statement (.revB22 f) := ⟨rfl, fun _ => ⟨rfl, rfl⟩⟩
theorem loadB23 (f : Fields) : Statement (.loadB23 f) := ⟨rfl, fun _ => ⟨rfl, rfl⟩⟩
theorem addBToStore24 (f : Fields) : Statement (.addBToStore24 f) := ⟨rfl, fun _ => ⟨rfl, rfl⟩⟩
theorem subBFromStore25 (f : Fields) : Statement (.subBFromStore25 f) := ⟨rfl, fun _ => ⟨rfl, rfl⟩⟩
theorem revBFromStore26 (f : Fields) : Statement (.revBFromStore26 f) := ⟨rfl, fun _ => ⟨rfl, rfl⟩⟩
theorem storeB27 (f : Fields) : Statement (.storeB27 f) := ⟨rfl, fun _ => ⟨rfl, rfl⟩⟩
theorem addA30 (f : Fields) : Statement (.addA30 f) := ⟨rfl, fun _ => ⟨rfl, rfl⟩⟩
theorem subA31 (f : Fields) : Statement (.subA31 f) := ⟨rfl, fun _ => ⟨rfl, rfl⟩⟩
theorem revA32 (f : Fields) : Statement (.revA32 f) := ⟨rfl, fun _ => ⟨rfl, rfl⟩⟩
theorem loadA33 (f : Fields) : Statement (.loadA33 f) := ⟨rfl, fun _ => ⟨rfl, rfl⟩⟩
theorem addAToStore34 (f : Fields) : Statement (.addAToStore34 f) := ⟨rfl, fun _ => ⟨rfl, rfl⟩⟩
theorem subAFromStore35 (f : Fields) : Statement (.subAFromStore35 f) := ⟨rfl, fun _ => ⟨rfl, rfl⟩⟩
theorem revAFromStore36 (f : Fields) : Statement (.revAFromStore36 f) := ⟨rfl, fun _ => ⟨rfl, rfl⟩⟩
theorem storeA37 (f : Fields) : Statement (.storeA37 f) := ⟨rfl, fun _ => ⟨rfl, rfl⟩⟩
theorem jumpIncB40 (f : Fields) : Statement (.jumpIncB40 f) := ⟨rfl, fun _ => ⟨rfl, rfl⟩⟩
theorem jumpDecB41 (f : Fields) : Statement (.jumpDecB41 f) := ⟨rfl, fun _ => ⟨rfl, rfl⟩⟩
theorem jumpBZero42 (f : Fields) : Statement (.jumpBZero42 f) := ⟨rfl, fun _ => ⟨rfl, rfl⟩⟩
theorem subEntry43 (f : Fields) : Statement (.subEntry43 f) := ⟨rfl, fun _ => ⟨rfl, rfl⟩⟩
theorem jumpAGeZero44 (f : Fields) : Statement (.jumpAGeZero44 f) := ⟨rfl, fun _ => ⟨rfl, rfl⟩⟩
theorem jumpALtZero45 (f : Fields) : Statement (.jumpALtZero45 f) := ⟨rfl, fun _ => ⟨rfl, rfl⟩⟩
theorem jumpAZero46 (f : Fields) : Statement (.jumpAZero46 f) := ⟨rfl, fun _ => ⟨rfl, rfl⟩⟩
theorem jumpOverflow47 (f : Fields) : Statement (.jumpOverflow47 f) := ⟨rfl, fun _ => ⟨rfl, rfl⟩⟩
theorem jumpAbs50 (f : Fields) : Statement (.jumpAbs50 f) := ⟨rfl, fun _ => ⟨rfl, rfl⟩⟩
theorem jumpRel51 (f : Fields) : Statement (.jumpRel51 f) := ⟨rfl, fun _ => ⟨rfl, rfl⟩⟩
theorem andA52 (f : Fields) : Statement (.andA52 f) := ⟨rfl, fun _ => ⟨rfl, rfl⟩⟩
theorem loadR53 (f : Fields) : Statement (.loadR53 f) := ⟨rfl, fun _ => ⟨rfl, rfl⟩⟩
theorem incStore54 (f : Fields) : Statement (.incStore54 f) := ⟨rfl, fun _ => ⟨rfl, rfl⟩⟩
theorem decStore55 (f : Fields) : Statement (.decStore55 f) := ⟨rfl, fun _ => ⟨rfl, rfl⟩⟩
theorem andStore56 (f : Fields) : Statement (.andStore56 f) := ⟨rfl, fun _ => ⟨rfl, rfl⟩⟩
theorem storeR57 (f : Fields) : Statement (.storeR57 f) := ⟨rfl, fun _ => ⟨rfl, rfl⟩⟩
theorem shiftLogical60 (f : Fields) : Statement (.shiftLogical60 f) := ⟨rfl, fun _ => ⟨rfl, rfl⟩⟩
theorem shiftArith61 (f : Fields) : Statement (.shiftArith61 f) := ⟨rfl, fun _ => ⟨rfl, rfl⟩⟩
theorem shiftDouble62 (f : Fields) : Statement (.shiftDouble62 f) := ⟨rfl, fun _ => ⟨rfl, rfl⟩⟩
theorem squareRoot63 (f : Fields) : Statement (.squareRoot63 f) := ⟨rfl, fun _ => ⟨rfl, rfl⟩⟩
theorem mulDouble64 (f : Fields) : Statement (.mulDouble64 f) := ⟨rfl, fun _ => ⟨rfl, rfl⟩⟩
theorem mulSingle65 (f : Fields) : Statement (.mulSingle65 f) := ⟨rfl, fun _ => ⟨rfl, rfl⟩⟩
theorem divDouble66 (f : Fields) : Statement (.divDouble66 f) := ⟨rfl, fun _ => ⟨rfl, rfl⟩⟩
theorem divSingle67 (f : Fields) : Statement (.divSingle67 f) := ⟨rfl, fun _ => ⟨rfl, rfl⟩⟩
theorem inputAdd70 (f : Fields) : Statement (.inputAdd70 f) := ⟨rfl, fun _ => ⟨rfl, rfl⟩⟩
theorem stop71 (f : Fields) : Statement (.stop71 f) := ⟨rfl, fun _ => ⟨rfl, rfl⟩⟩
theorem stop72 (f : Fields) : Statement (.stop72 f) := ⟨rfl, fun _ => ⟨rfl, rfl⟩⟩
theorem inputRead73 (f : Fields) : Statement (.inputRead73 f) := ⟨rfl, fun _ => ⟨rfl, rfl⟩⟩
theorem autoControl74 (f : Fields) : Statement (.autoControl74 f) := ⟨rfl, fun _ => ⟨rfl, rfl⟩⟩
theorem stop75 (f : Fields) : Statement (.stop75 f) := ⟨rfl, fun _ => ⟨rfl, rfl⟩⟩
theorem programBreak76 (f : Fields) : Statement (.programBreak76 f) := ⟨rfl, fun _ => ⟨rfl, rfl⟩⟩
theorem output77 (f : Fields) : Statement (.output77 f) := ⟨rfl, fun _ => ⟨rfl, rfl⟩⟩

end Sys2Proof.Laws.FunctionCode
end

