-- ==== Sys2Proof/Machine/Times.lean ====
section
/-!
DEFINITION. The table of approximate times (spec/70_reset_and_hazards.md R170 to R172), transcribed. No rule of the machine
depends on it (R170) and nothing else in the model uses it (log 33). Times are in tenths of a microsecond.
-/

namespace Sys2Proof.Machine

/-- The shortest and longest time the table gives. -/
structure Duration where
  least : Nat
  most : Nat
deriving DecidableEq, Repr

/-- One figure for an instruction in fast RAM, one for an instruction in main RAM. -/
def byStore (inFast inMain : Nat) : StoreName → Duration
  | .fast => ⟨inFast, inFast⟩
  | .main => ⟨inMain, inMain⟩

/-- The approximate time of the instruction with a given function code, M and number of places shifted, standing in a given
store; none for 71, 72, 75, which the table does not list (R171). For 63, 64 to 67, 70, 73, 77, 76 and 74 the table prints one
entry, and the source does not say to which store it belongs or whether it holds for both (R171; 91_not_in_source.md N27);
that it is given for both is the model's choice (DESIGN CHOICE, log 42). -/
def approximateTime (code : Nat) (m : Bool) (places : Nat) (here : StoreName) : Option Duration :=
  if code < 0o20 then some (if m then byStore 43 82 here else byStore 23 38 here)
  else if code < 0o40 then some (if m then byStore 48 82 here else byStore 33 43 here)
  else if code < 0o52 then some (match here with | .fast => ⟨15, 30⟩ | .main => ⟨25, 41⟩)
  else if code < 0o60 then some (if m then byStore 43 82 here else byStore 33 43 here)
  else if code < 0o62 then some (byStore (28 + 5 * places) (40 + 5 * places) here)
  else if code = 0o62 then some (byStore (32 + 9 * places) (44 + 9 * places) here)
  else if code = 0o63 then some ⟨330, 450⟩
  else if code < 0o70 then some ⟨180, 240⟩
  else if code = 0o70 ∨ code = 0o73 ∨ code = 0o77 then some ⟨40, 60⟩
  else if code = 0o76 then some ⟨120, 150⟩
  else if code = 0o74 then some ⟨50, 80⟩
  else none

end Sys2Proof.Machine
end

