-- ==== Sys2Proof/Tests/Slice0.lean ====
section
/-!
SUPPORT. Small tests. The expected values are those of spec/95_test_vectors.md, named after its lines, or worked out by hand from
the rule named; then, for each statement with hypotheses, a theorem that shows a state and operands that meet them.
-/

namespace Sys2Proof.Tests

open Sys2Proof.Machine

/-! ## Ill-formed instructions (WellFormed) -/

theorem test_04_without_m_is_ill_formed : (Instr.addBToStore04 ⟨false, false, .unmodified, 300⟩).wf = false := by decide

theorem test_device_16_is_ill_formed : (Instr.inputRead73 ⟨false, false, .unmodified, 16⟩).wf = false := by decide

theorem test_74_is_ill_formed : (Instr.autoControl74 ⟨false, false, .unmodified, 3⟩).wf = false := by decide

theorem test_04_with_m_is_well_formed : (Instr.addBToStore04 ⟨false, true, .unmodified, 300⟩).wf = true := by decide

theorem test_device_1_is_well_formed : (Instr.inputRead73 ⟨false, false, .unmodified, 1⟩).wf = true := by decide

/-! ## Decoding: words written out from the field layout of R46 (L, M, six bits F, two bits K, ten bits N) -/

theorem test_group_0_words_decode :
  decode 0b00000000000000000101#20 = .addB00 ⟨false, false, .unmodified, 5⟩ ∧
  decode 0b10000001010000101010#20 = .subB01 ⟨true, false, .byB, 42⟩ ∧
  decode 0b01000010100001001111#20 = .revB02 ⟨false, true, .byA, 79⟩ ∧
  decode 0b11000011110001110100#20 = .loadB03 ⟨true, true, .byS, 116⟩ ∧
  decode 0b00000100000010011001#20 = .addBToStore04 ⟨false, false, .unmodified, 153⟩ ∧
  decode 0b10000101010010111110#20 = .subBFromStore05 ⟨true, false, .byB, 190⟩ ∧
  decode 0b01000110100011100011#20 = .revBFromStore06 ⟨false, true, .byA, 227⟩ ∧
  decode 0b11000111110100001000#20 = .storeB07 ⟨true, true, .byS, 264⟩ := by decide

theorem test_group_1_words_decode :
  decode 0b00001000010100101101#20 = .addA10 ⟨false, false, .byB, 301⟩ ∧
  decode 0b10001001100101010010#20 = .subA11 ⟨true, false, .byA, 338⟩ ∧
  decode 0b01001010110101110111#20 = .revA12 ⟨false, true, .byS, 375⟩ ∧
  decode 0b11001011000110011100#20 = .loadA13 ⟨true, true, .unmodified, 412⟩ ∧
  decode 0b00001100010111000001#20 = .addAToStore14 ⟨false, false, .byB, 449⟩ ∧
  decode 0b10001101100111100110#20 = .subAFromStore15 ⟨true, false, .byA, 486⟩ ∧
  decode 0b01001110111000001011#20 = .revAFromStore16 ⟨false, true, .byS, 523⟩ ∧
  decode 0b11001111001000110000#20 = .storeA17 ⟨true, true, .unmodified, 560⟩ := by decide

theorem test_group_2_words_decode :
  decode 0b00010000101001010101#20 = .addB20 ⟨false, false, .byA, 597⟩ ∧
  decode 0b10010001111001111010#20 = .subB21 ⟨true, false, .byS, 634⟩ ∧
  decode 0b01010010001010011111#20 = .revB22 ⟨false, true, .unmodified, 671⟩ ∧
  decode 0b11010011011011000100#20 = .loadB23 ⟨true, true, .byB, 708⟩ ∧
  decode 0b00010100101011101001#20 = .addBToStore24 ⟨false, false, .byA, 745⟩ ∧
  decode 0b10010101111100001110#20 = .subBFromStore25 ⟨true, false, .byS, 782⟩ ∧
  decode 0b01010110001100110011#20 = .revBFromStore26 ⟨false, true, .unmodified, 819⟩ ∧
  decode 0b11010111011101011000#20 = .storeB27 ⟨true, true, .byB, 856⟩ := by decide

theorem test_group_3_words_decode :
  decode 0b00011000111101111101#20 = .addA30 ⟨false, false, .byS, 893⟩ ∧
  decode 0b10011001001110100010#20 = .subA31 ⟨true, false, .unmodified, 930⟩ ∧
  decode 0b01011010011111000111#20 = .revA32 ⟨false, true, .byB, 967⟩ ∧
  decode 0b11011011101111101100#20 = .loadA33 ⟨true, true, .byA, 1004⟩ ∧
  decode 0b00011100110000010001#20 = .addAToStore34 ⟨false, false, .byS, 17⟩ ∧
  decode 0b10011101000000110110#20 = .subAFromStore35 ⟨true, false, .unmodified, 54⟩ ∧
  decode 0b01011110010001011011#20 = .revAFromStore36 ⟨false, true, .byB, 91⟩ ∧
  decode 0b11011111100010000000#20 = .storeA37 ⟨true, true, .byA, 128⟩ := by decide

theorem test_group_4_words_decode :
  decode 0b00100000000010100101#20 = .jumpIncB40 ⟨false, false, .unmodified, 165⟩ ∧
  decode 0b10100001010011001010#20 = .jumpDecB41 ⟨true, false, .byB, 202⟩ ∧
  decode 0b01100010100011101111#20 = .jumpBZero42 ⟨false, true, .byA, 239⟩ ∧
  decode 0b11100011110100010100#20 = .subEntry43 ⟨true, true, .byS, 276⟩ ∧
  decode 0b00100100000100111001#20 = .jumpAGeZero44 ⟨false, false, .unmodified, 313⟩ ∧
  decode 0b10100101010101011110#20 = .jumpALtZero45 ⟨true, false, .byB, 350⟩ ∧
  decode 0b01100110100110000011#20 = .jumpAZero46 ⟨false, true, .byA, 387⟩ ∧
  decode 0b11100111110110101000#20 = .jumpOverflow47 ⟨true, true, .byS, 424⟩ := by decide

theorem test_group_5_words_decode :
  decode 0b00101000010111001101#20 = .jumpAbs50 ⟨false, false, .byB, 461⟩ ∧
  decode 0b10101001100111110010#20 = .jumpRel51 ⟨true, false, .byA, 498⟩ ∧
  decode 0b01101010111000010111#20 = .andA52 ⟨false, true, .byS, 535⟩ ∧
  decode 0b11101011001000111100#20 = .loadR53 ⟨true, true, .unmodified, 572⟩ ∧
  decode 0b00101100011001100001#20 = .incStore54 ⟨false, false, .byB, 609⟩ ∧
  decode 0b10101101101010000110#20 = .decStore55 ⟨true, false, .byA, 646⟩ ∧
  decode 0b01101110111010101011#20 = .andStore56 ⟨false, true, .byS, 683⟩ ∧
  decode 0b11101111001011010000#20 = .storeR57 ⟨true, true, .unmodified, 720⟩ := by decide

theorem test_group_6_words_decode :
  decode 0b00110000101011110101#20 = .shiftLogical60 ⟨false, false, .byA, 757⟩ ∧
  decode 0b10110001111100011010#20 = .shiftArith61 ⟨true, false, .byS, 794⟩ ∧
  decode 0b01110010001100111111#20 = .shiftDouble62 ⟨false, true, .unmodified, 831⟩ ∧
  decode 0b11110011011101100100#20 = .squareRoot63 ⟨true, true, .byB, 868⟩ ∧
  decode 0b00110100101110001001#20 = .mulDouble64 ⟨false, false, .byA, 905⟩ ∧
  decode 0b10110101111110101110#20 = .mulSingle65 ⟨true, false, .byS, 942⟩ ∧
  decode 0b01110110001111010011#20 = .divDouble66 ⟨false, true, .unmodified, 979⟩ ∧
  decode 0b11110111011111111000#20 = .divSingle67 ⟨true, true, .byB, 1016⟩ := by decide

theorem test_group_7_words_decode :
  decode 0b00111000110000011101#20 = .inputAdd70 ⟨false, false, .byS, 29⟩ ∧
  decode 0b10111001000001000010#20 = .stop71 ⟨true, false, .unmodified, 66⟩ ∧
  decode 0b01111010010001100111#20 = .stop72 ⟨false, true, .byB, 103⟩ ∧
  decode 0b11111011100010001100#20 = .inputRead73 ⟨true, true, .byA, 140⟩ ∧
  decode 0b00111100110010110001#20 = .autoControl74 ⟨false, false, .byS, 177⟩ ∧
  decode 0b10111101000011010110#20 = .stop75 ⟨true, false, .unmodified, 214⟩ ∧
  decode 0b01111110010011111011#20 = .programBreak76 ⟨false, true, .byB, 251⟩ ∧
  decode 0b11111111100100100000#20 = .output77 ⟨true, true, .byA, 288⟩ := by decide

theorem test_words_e1_to_e6_are_encoded :
  encode (.output77 ⟨true, true, .byS, 1023⟩) = 0xFFFFF#20 ∧ encode (.loadA33 ⟨false, true, .unmodified, 64⟩) = 0x5B040#20 ∧
  encode (.addA10 ⟨true, false, .byA, 0⟩) = 0x88800#20 ∧ encode (.jumpAGeZero44 ⟨false, true, .byS, 3⟩) = 0x64C03#20 := by decide

theorem test_table_word : decodeTableWord 24 0x3E028 = some (.programBreak76 ⟨false, false, .unmodified, 40⟩) := by decide

theorem test_table_word_over_20_bits : decodeTableWord 24 0x100000 = none := by decide

/-! ## One step of each instruction (spec/95_test_vectors.md) -/

/-- A place in the fast store. -/
def fastAt (n : Nat) : Place := ⟨.fast, n⟩

/-- A place in the main store. -/
def mainAt (n : Nat) : Place := ⟨.main, n⟩

/-- The launch state with a place for S, registers, OV, and words in the stores. -/
def machine (p : Place) (a b r : Word) (ov : Bool) (cells : List (Place × Word)) : State :=
  cells.foldl (fun s c => s.poke c.1 c.2) { State.reset with seq := p, a := a, b := b, r := r, ov := ov }

/-- The step answers a next state with a property. -/
def ends (s : State) (p : State → Bool) : Bool :=
  match step s with
  | .next t => p t
  | _ => false

/-- The registers and S of a state. -/
def shows (t : State) (a b r : Word) (p : Place) : Bool := t.a == a && t.b == b && t.r == r && t.seq == p

/-- The step refuses with a reason. -/
def refuses (s : State) (r : Refusal) : Bool :=
  match step s with
  | .refused q => q == r
  | _ => false

/-- The step faults with a reason. -/
def faults (s : State) (r : Fault) : Bool :=
  match step s with
  | .fault q => q == r
  | _ => false

theorem test_m2_literal_wraps : ends (machine (fastAt 16) 0x0 0xfffff 0x0 false [(fastAt 16, 0xb7ff)]) (fun t =>
  shows t 0x3fe 0xfffff 0x0 (fastAt 17) && t.ov == false) = true := by decide

theorem test_m4_modified_by_s_in_main : ends (machine (mainAt 100) 0x0 0x0 0x0 false [(mainAt 100, 0xbc02)]) (fun t =>
  shows t 0x80067 0x0 0x0 (mainAt 101) && t.ov == false) = true := by decide

theorem test_m10_pointer_bit_19 : ends (machine (fastAt 16) 0x0 0x0 0x0 false [(fastAt 16, 0x5b040), (fastAt 64, 0x800c8), (mainAt 200, 0x54321)]) (fun t =>
  shows t 0x54321 0x0 0x0 (fastAt 17) && t.ov == false) = true := by decide

theorem test_m9_indirect_beyond_main : faults (machine (fastAt 16) 0x0 0x0 0x0 false [(fastAt 16, 0x5b040), (fastAt 64, 0x2000)]) .addressOutOfRange = true := by decide

theorem test_v0_1 : ends (machine (fastAt 16) 0x0 0x3 0x0 false [(fastAt 16, 0x5)]) (fun t =>
  shows t 0x0 0x8 0x0 (fastAt 17) && t.ov == false) = true := by decide

theorem test_v0_2 : ends (machine (fastAt 16) 0x0 0x7ffff 0x0 false [(fastAt 16, 0x3ff)]) (fun t =>
  shows t 0x0 0x803fe 0x0 (fastAt 17)) = true := by decide

theorem test_v0_3 : ends (machine (fastAt 16) 0x0 0x3 0x0 false [(fastAt 16, 0x1005)]) (fun t =>
  shows t 0x0 0xffffe 0x0 (fastAt 17) && t.ov == false) = true := by decide

theorem test_v0_4 : ends (machine (fastAt 16) 0x0 0x3 0x0 false [(fastAt 16, 0x2005)]) (fun t =>
  shows t 0x0 0x2 0x0 (fastAt 17) && t.ov == false) = true := by decide

theorem test_v0_5 : ends (machine (fastAt 16) 0x0 0x0 0x0 false [(fastAt 16, 0x33ff)]) (fun t =>
  shows t 0x0 0x3ff 0x0 (fastAt 17) && t.ov == false) = true := by decide

theorem test_v0_6 : ends (machine (fastAt 16) 0x0 0xfffff 0x0 false [(fastAt 16, 0x4012c), (mainAt 300, 0x1)]) (fun t =>
  shows t 0x0 0x0 0x0 (fastAt 17) && t.ov == false) = true := by decide

theorem test_v0_7 : ends (machine (fastAt 16) 0x0 0x2 0x0 false [(fastAt 16, 0x4412c), (mainAt 300, 0x10)]) (fun t =>
  shows t 0x0 0x2 0x0 (fastAt 17) && t.ov == false && t.peek (mainAt 300) == some 0x12) = true := by decide

theorem test_v0_8 : ends (machine (fastAt 16) 0x0 0x2 0x0 false [(fastAt 16, 0x4512c), (mainAt 300, 0x10)]) (fun t =>
  shows t 0x0 0x2 0x0 (fastAt 17) && t.ov == false && t.peek (mainAt 300) == some 0xffff2) = true := by decide

theorem test_v0_9 : ends (machine (fastAt 16) 0x0 0x2 0x0 false [(fastAt 16, 0x4612c), (mainAt 300, 0x10)]) (fun t =>
  shows t 0x0 0x2 0x0 (fastAt 17) && t.ov == false && t.peek (mainAt 300) == some 0xe) = true := by decide

theorem test_v0_10 : ends (machine (fastAt 16) 0x0 0x80069 0x0 false [(fastAt 16, 0x4712d)]) (fun t =>
  shows t 0x0 0x80069 0x0 (fastAt 17) && t.ov == false && t.peek (mainAt 301) == some 0x80069) = true := by decide

theorem test_v0_11 : refuses (machine (fastAt 16) 0x0 0x0 0x0 false [(fastAt 16, 0x412c)]) .noEntryM0 = true := by decide

theorem test_v1_1 : ends (machine (fastAt 16) 0x7ffff 0x0 0x0 false [(fastAt 16, 0x8001)]) (fun t =>
  shows t 0x80000 0x0 0x0 (fastAt 17)) = true := by decide

theorem test_v1_2 : ends (machine (fastAt 16) 0x80000 0x0 0x0 false [(fastAt 16, 0x9001)]) (fun t =>
  shows t 0x7ffff 0x0 0x0 (fastAt 17)) = true := by decide

theorem test_v1_3 : ends (machine (fastAt 16) 0x80000 0x0 0x0 false [(fastAt 16, 0xa000)]) (fun t =>
  shows t 0x80000 0x0 0x0 (fastAt 17)) = true := by decide

theorem test_v1_4 : ends (machine (fastAt 16) 0x9 0x0 0x0 false [(fastAt 16, 0xa007)]) (fun t =>
  shows t 0xffffe 0x0 0x0 (fastAt 17) && t.ov == false) = true := by decide

theorem test_v1_6 : ends (machine (fastAt 16) 0x5 0x0 0x0 false [(fastAt 16, 0x4c028), (mainAt 40, 0xffffe)]) (fun t =>
  shows t 0x5 0x0 0x0 (fastAt 17) && t.ov == false && t.peek (mainAt 40) == some 0x3) = true := by decide

theorem test_v1_7 : ends (machine (fastAt 16) 0x5 0x0 0x0 false [(fastAt 16, 0x4d028), (mainAt 40, 0x7)]) (fun t =>
  shows t 0x5 0x0 0x0 (fastAt 17) && t.ov == false && t.peek (mainAt 40) == some 0xffffe) = true := by decide

theorem test_v1_8 : ends (machine (fastAt 16) 0x5 0x0 0x0 false [(fastAt 16, 0x4e028), (mainAt 40, 0x7)]) (fun t =>
  shows t 0x5 0x0 0x0 (fastAt 17) && t.ov == false && t.peek (mainAt 40) == some 0x2) = true := by decide

theorem test_v1_9 : ends (machine (fastAt 16) 0xabcde 0x0 0x0 false [(fastAt 16, 0x4f028)]) (fun t =>
  shows t 0xabcde 0x0 0x0 (fastAt 17) && t.ov == false && t.peek (mainAt 40) == some 0xabcde) = true := by decide

theorem test_v2_1 : ends (machine (fastAt 16) 0x0 0x1 0x0 false [(fastAt 16, 0x10021), (fastAt 33, 0x7ffff)]) (fun t =>
  shows t 0x0 0x80000 0x0 (fastAt 17)) = true := by decide

theorem test_v2_2 : ends (machine (fastAt 16) 0x0 0x1 0x0 false [(fastAt 16, 0x11021), (fastAt 33, 0x3)]) (fun t =>
  shows t 0x0 0xffffe 0x0 (fastAt 17) && t.ov == false) = true := by decide

theorem test_v2_3 : ends (machine (fastAt 16) 0x0 0x1 0x0 false [(fastAt 16, 0x12021), (fastAt 33, 0x3)]) (fun t =>
  shows t 0x0 0x2 0x0 (fastAt 17) && t.ov == false) = true := by decide

theorem test_v2_4 : ends (machine (fastAt 16) 0x0 0x0 0x0 false [(fastAt 16, 0x53040), (fastAt 64, 0xc8), (mainAt 200, 0x54321)]) (fun t =>
  shows t 0x0 0x54321 0x0 (fastAt 17) && t.ov == false) = true := by decide

theorem test_v2_5 : ends (machine (fastAt 16) 0x0 0x2 0x0 false [(fastAt 16, 0x14021), (fastAt 33, 0x5)]) (fun t =>
  shows t 0x0 0x2 0x0 (fastAt 17) && t.ov == false && t.peek (fastAt 33) == some 0x7) = true := by decide

theorem test_v2_6 : ends (machine (fastAt 16) 0x0 0x2 0x0 false [(fastAt 16, 0x15021), (fastAt 33, 0x5)]) (fun t =>
  shows t 0x0 0x2 0x0 (fastAt 17) && t.ov == false && t.peek (fastAt 33) == some 0xffffd) = true := by decide

theorem test_v2_7 : ends (machine (fastAt 16) 0x0 0x2 0x0 false [(fastAt 16, 0x16021), (fastAt 33, 0x5)]) (fun t =>
  shows t 0x0 0x2 0x0 (fastAt 17) && t.ov == false && t.peek (fastAt 33) == some 0x3) = true := by decide

theorem test_v2_8 : ends (machine (fastAt 16) 0x0 0x9 0x0 false [(fastAt 16, 0x57040), (fastAt 64, 0x800c8)]) (fun t =>
  shows t 0x0 0x9 0x0 (fastAt 17) && t.ov == false && t.peek (mainAt 200) == some 0x9 && t.peek (fastAt 64) == some 0x800c8) = true := by decide

theorem test_v3_1 : ends (machine (fastAt 16) 0x40000 0x0 0x0 false [(fastAt 16, 0x18021), (fastAt 33, 0x40000)]) (fun t =>
  shows t 0x80000 0x0 0x0 (fastAt 17) && t.ov == true) = true := by decide

theorem test_v3_3_sticky : ends (machine (fastAt 16) 0x1 0x0 0x0 true [(fastAt 16, 0x18021), (fastAt 33, 0x1)]) (fun t =>
  shows t 0x2 0x0 0x0 (fastAt 17) && t.ov == true) = true := by decide

theorem test_v3_4 : ends (machine (fastAt 16) 0x80000 0x0 0x0 false [(fastAt 16, 0x19021), (fastAt 33, 0x1)]) (fun t =>
  shows t 0x7ffff 0x0 0x0 (fastAt 17) && t.ov == true) = true := by decide

theorem test_v3_5 : ends (machine (fastAt 16) 0x0 0x0 0x0 false [(fastAt 16, 0x19021), (fastAt 33, 0x80000)]) (fun t =>
  shows t 0x80000 0x0 0x0 (fastAt 17) && t.ov == true) = true := by decide

theorem test_v3_6 : ends (machine (fastAt 16) 0x80000 0x0 0x0 false [(fastAt 16, 0x1a021), (fastAt 33, 0x0)]) (fun t =>
  shows t 0x80000 0x0 0x0 (fastAt 17) && t.ov == true) = true := by decide

theorem test_v3_7 : ends (machine (fastAt 16) 0x3 0x0 0x0 false [(fastAt 16, 0x1a021), (fastAt 33, 0xa)]) (fun t =>
  shows t 0x7 0x0 0x0 (fastAt 17) && t.ov == false) = true := by decide

theorem test_v3_9 : ends (machine (fastAt 16) 0x7ffff 0x0 0x0 false [(fastAt 16, 0x1c021), (fastAt 33, 0x1)]) (fun t =>
  shows t 0x7ffff 0x0 0x0 (fastAt 17) && t.ov == true && t.peek (fastAt 33) == some 0x80000) = true := by decide

theorem test_v3_10 : ends (machine (fastAt 16) 0x5 0x0 0x0 false [(fastAt 16, 0x1d021), (fastAt 33, 0x7)]) (fun t =>
  shows t 0x5 0x0 0x0 (fastAt 17) && t.ov == false && t.peek (fastAt 33) == some 0xffffe) = true := by decide

theorem test_v3_12 : ends (machine (fastAt 16) 0x5 0x0 0x0 false [(fastAt 16, 0x5e040), (fastAt 64, 0xc8), (mainAt 200, 0x7)]) (fun t =>
  shows t 0x5 0x0 0x0 (fastAt 17) && t.ov == false && t.peek (mainAt 200) == some 0x2) = true := by decide

theorem test_v3_13 : ends (machine (fastAt 16) 0x6 0x0 0x0 false [(fastAt 16, 0x5f041), (fastAt 65, 0xc9)]) (fun t =>
  shows t 0x6 0x0 0x0 (fastAt 17) && t.ov == false && t.peek (mainAt 201) == some 0x6 && t.peek (fastAt 65) == some 0xc9) = true := by decide

theorem test_v4_2 : ends (machine (fastAt 16) 0x0 0x0 0x0 false [(fastAt 16, 0x20012)]) (fun t =>
  shows t 0x0 0x0 0x0 (fastAt 17) && t.ov == false) = true := by decide

theorem test_v4_4 : ends (machine (fastAt 16) 0x0 0x7ffff 0x0 false [(fastAt 16, 0x20012)]) (fun t =>
  shows t 0x0 0x80000 0x0 (fastAt 18)) = true := by decide

theorem test_v4_6 : ends (machine (fastAt 16) 0x0 0x80000 0x0 false [(fastAt 16, 0x21012)]) (fun t =>
  shows t 0x0 0x7ffff 0x0 (fastAt 18)) = true := by decide

theorem test_v4_7 : ends (machine (fastAt 16) 0x0 0x5 0x0 false [(fastAt 16, 0x21402)]) (fun t =>
  shows t 0x0 0x4 0x0 (fastAt 7) && t.ov == false) = true := by decide

theorem test_v4_8_taken : ends (machine (fastAt 16) 0x0 0x0 0x0 false [(fastAt 16, 0x62064)]) (fun t =>
  shows t 0x0 0x0 0x0 (mainAt 100) && t.ov == false) = true := by decide

theorem test_v4_8_not_taken : ends (machine (fastAt 16) 0x0 0x1 0x0 false [(fastAt 16, 0x62064)]) (fun t =>
  shows t 0x0 0x1 0x0 (fastAt 17) && t.ov == false) = true := by decide

theorem test_v4_11 : ends (machine (mainAt 104) 0x0 0x0 0x0 false [(mainAt 104, 0x23008)]) (fun t =>
  shows t 0x0 0x80069 0x0 (fastAt 8) && t.ov == false) = true := by decide

theorem test_v4_12 : ends (machine (fastAt 16) 0x0 0x6 0x0 false [(fastAt 16, 0x23404)]) (fun t =>
  shows t 0x0 0x11 0x0 (fastAt 10) && t.ov == false) = true := by decide

theorem test_v4_13_zero : ends (machine (fastAt 16) 0x0 0x0 0x0 false [(fastAt 16, 0x24014)]) (fun t =>
  shows t 0x0 0x0 0x0 (fastAt 20) && t.ov == false) = true := by decide

theorem test_v4_13_negative : ends (machine (fastAt 16) 0x80000 0x0 0x0 false [(fastAt 16, 0x24014)]) (fun t =>
  shows t 0x80000 0x0 0x0 (fastAt 17) && t.ov == false) = true := by decide

theorem test_v4_14_negative : ends (machine (fastAt 16) 0xfffff 0x0 0x0 false [(fastAt 16, 0x25014)]) (fun t =>
  shows t 0xfffff 0x0 0x0 (fastAt 20) && t.ov == false) = true := by decide

theorem test_v4_21_not_taken_not_checked : ends (machine (fastAt 16) 0x0 0x1 0x0 false [(fastAt 16, 0x257ff)]) (fun t =>
  shows t 0x0 0x1 0x0 (fastAt 17) && t.ov == false) = true := by decide

theorem test_v4_15_zero : ends (machine (fastAt 16) 0x0 0x0 0x0 false [(fastAt 16, 0x26014)]) (fun t =>
  shows t 0x0 0x0 0x0 (fastAt 20) && t.ov == false) = true := by decide

theorem test_v4_15_one : ends (machine (fastAt 16) 0x1 0x0 0x0 false [(fastAt 16, 0x26014)]) (fun t =>
  shows t 0x1 0x0 0x0 (fastAt 17) && t.ov == false) = true := by decide

theorem test_v4_16_set : ends (machine (fastAt 16) 0x0 0x0 0x0 true [(fastAt 16, 0x27007)]) (fun t =>
  shows t 0x0 0x0 0x0 (fastAt 7) && t.ov == false) = true := by decide

theorem test_v4_16_clear : ends (machine (fastAt 16) 0x0 0x0 0x0 false [(fastAt 16, 0x27007)]) (fun t =>
  shows t 0x0 0x0 0x0 (fastAt 17) && t.ov == false) = true := by decide

theorem test_v5_2 : ends (machine (fastAt 16) 0x0 0x80069 0x0 false [(fastAt 16, 0x68400)]) (fun t =>
  shows t 0x0 0x80069 0x0 (mainAt 105) && t.ov == false) = true := by decide

theorem test_v5_3 : ends (machine (fastAt 16) 0x0 0x0 0x0 false [(fastAt 16, 0x28c05)]) (fun t =>
  shows t 0x0 0x0 0x0 (fastAt 22) && t.ov == false) = true := by decide

theorem test_v5_7 : ends (machine (mainAt 111) 0x0 0x0 0x0 false [(mainAt 111, 0x69001)]) (fun t =>
  shows t 0x0 0x0 0x0 (mainAt 111) && t.ov == false) = true := by decide

theorem test_v5_8 : faults (machine (fastAt 16) 0x0 0x0 0x0 false [(fastAt 16, 0x29014)]) .addressOutOfRange = true := by decide

theorem test_v5_9 : ends (machine (fastAt 16) 0xf5 0x0 0x0 false [(fastAt 16, 0x2a028), (fastAt 40, 0x30)]) (fun t =>
  shows t 0x30 0x0 0x0 (fastAt 17) && t.ov == false) = true := by decide

theorem test_v5_10 : ends (machine (fastAt 16) 0xfffff 0x0 0x0 false [(fastAt 16, 0x6a028), (mainAt 40, 0xa5a5a)]) (fun t =>
  shows t 0xa5a5a 0x0 0x0 (fastAt 17) && t.ov == false) = true := by decide

theorem test_v5_11 : ends (machine (fastAt 16) 0x0 0x0 0x0 false [(fastAt 16, 0x2b029), (fastAt 41, 0x92345)]) (fun t =>
  shows t 0x0 0x0 0x92345 (fastAt 17) && t.ov == false) = true := by decide

theorem test_v5_12 : ends (machine (fastAt 16) 0x0 0x0 0x0 false [(fastAt 16, 0x6c12c), (mainAt 300, 0x30)]) (fun t =>
  shows t 0x0 0x0 0x0 (fastAt 17) && t.ov == false && t.peek (mainAt 300) == some 0x31) = true := by decide

theorem test_v5_13 : ends (machine (fastAt 16) 0x0 0x0 0x0 false [(fastAt 16, 0x2c02a), (fastAt 42, 0x7ffff)]) (fun t =>
  shows t 0x0 0x0 0x0 (fastAt 17) && t.peek (fastAt 42) == some 0x80000) = true := by decide

theorem test_v5_14_zero : ends (machine (fastAt 16) 0x0 0x0 0x0 false [(fastAt 16, 0x2d02a), (fastAt 42, 0x0)]) (fun t =>
  shows t 0x0 0x0 0x0 (fastAt 17) && t.ov == false && t.peek (fastAt 42) == some 0xfffff) = true := by decide

theorem test_v5_14_least : ends (machine (fastAt 16) 0x0 0x0 0x0 false [(fastAt 16, 0x2d02a), (fastAt 42, 0x80000)]) (fun t =>
  shows t 0x0 0x0 0x0 (fastAt 17) && t.peek (fastAt 42) == some 0x7ffff) = true := by decide

theorem test_v5_15 : ends (machine (fastAt 16) 0x30 0x0 0x0 false [(fastAt 16, 0x6e12c), (mainAt 300, 0xf5)]) (fun t =>
  shows t 0x30 0x0 0x0 (fastAt 17) && t.ov == false && t.peek (mainAt 300) == some 0x30) = true := by decide

theorem test_v5_16 : ends (machine (fastAt 16) 0x0 0x0 0x20000 false [(fastAt 16, 0x2f022)]) (fun t =>
  shows t 0x0 0x0 0x20000 (fastAt 17) && t.ov == false && t.peek (fastAt 34) == some 0x20000) = true := by decide

theorem test_v6_5 : ends (machine (fastAt 16) 0xc0001 0x0 0x0 false [(fastAt 16, 0x30001)]) (fun t =>
  shows t 0x80002 0x0 0x0 (fastAt 17) && t.ov == false) = true := by decide

theorem test_v6_6 : refuses (machine (fastAt 16) 0x0 0x1 0x0 false [(fastAt 16, 0x307ff)]) .shiftCountTooLarge = true := by decide

theorem test_v6_7 : ends (machine (fastAt 16) 0xffffd 0x0 0x0 false [(fastAt 16, 0x31002)]) (fun t =>
  shows t 0xffff4 0x0 0x0 (fastAt 17) && t.ov == false) = true := by decide

theorem test_v6_10 : refuses (machine (fastAt 16) 0x40000 0x0 0x0 false [(fastAt 16, 0x31001)]) .arithShiftOverflow = true := by decide

theorem test_v6_16 : ends (machine (fastAt 16) 0xfffff 0x0 0x7ffff false [(fastAt 16, 0x32003)]) (fun t =>
  shows t 0xfffff 0x0 0x7fff8 (fastAt 17) && t.ov == false) = true := by decide

theorem test_v6_17 : refuses (machine (fastAt 16) 0x0 0x0 0x80001 false [(fastAt 16, 0x32001)]) .doubleLengthMalformed = true := by decide

theorem test_v6_23 : ends (machine (fastAt 16) 0xfffff 0x0 0x0 false [(fastAt 16, 0x33023), (fastAt 35, 0x20001)]) (fun t =>
  shows t 0x40000 0x0 0x0 (fastAt 17) && t.ov == false) = true := by decide

theorem test_v6_24 : refuses (machine (fastAt 16) 0x7ffff 0x0 0x0 false [(fastAt 16, 0x33023), (fastAt 35, 0x1)]) .sqrtDomain = true := by decide

theorem test_v6_27 : ends (machine (fastAt 16) 0xfffff 0x0 0x0 false [(fastAt 16, 0x34021), (fastAt 33, 0x1)]) (fun t =>
  shows t 0xfffff 0x0 0x7ffff (fastAt 17) && t.ov == false) = true := by decide

theorem test_v6_32 : refuses (machine (fastAt 16) 0x80000 0x0 0x0 false [(fastAt 16, 0x34021), (fastAt 33, 0x80000)]) .multiplyOverflow = true := by decide

theorem test_v6_34 : ends (machine (fastAt 16) 0x60000 0x0 0x55555 false [(fastAt 16, 0x75021), (mainAt 33, 0xa0000)]) (fun t =>
  shows t 0xb8000 0x0 0x0 (fastAt 17) && t.ov == false) = true := by decide

theorem test_v6_36 : ends (machine (fastAt 16) 0xfffff 0x0 0x0 false [(fastAt 16, 0x35021), (fastAt 33, 0x1)]) (fun t =>
  shows t 0xfffff 0x0 0x0 (fastAt 17) && t.ov == false) = true := by decide

theorem test_v6_41 : ends (machine (fastAt 16) 0x10000 0x0 0x0 false [(fastAt 16, 0x36021), (fastAt 33, 0xc0000)]) (fun t =>
  shows t 0x0 0x0 0xe0000 (fastAt 17) && t.ov == false) = true := by decide

theorem test_v6_44 : refuses (machine (fastAt 16) 0x1 0x0 0x0 false [(fastAt 16, 0x36021), (fastAt 33, 0x0)]) .divideByZero = true := by decide

theorem test_v6_47 : ends (machine (fastAt 16) 0x0 0x0 0xf false [(fastAt 16, 0x77021), (mainAt 33, 0x3)]) (fun t =>
  shows t 0x5 0x0 0x0 (fastAt 17) && t.ov == false) = true := by decide

theorem test_v6_48 : ends (machine (fastAt 16) 0xc0000 0x0 0x0 false [(fastAt 16, 0x37021), (fastAt 33, 0x80000)]) (fun t =>
  shows t 0x40000 0x0 0x0 (fastAt 17) && t.ov == false) = true := by decide

/-- A machine whose tape reader has the data listed. -/
def withTape (data : List Word) (s : State) : State := { s with inputs := s.inputs.set 1 data }

theorem test_v7_1 : ends (withTape [0x15] (machine (fastAt 16) 0x60 0 0 false [(fastAt 16, 0x38001)])) (fun t =>
  shows t 0x75 0 0 (fastAt 17) && t.inputs == State.reset.inputs) = true := by decide

theorem test_tape_datum_has_five_bits : ends (withTape [0xFFFE3, 7] (machine (fastAt 16) 0x33333 0 0 false [(fastAt 16, 0x3B001)]))
  (fun t => shows t 3 0 0 (fastAt 17) && t.inputs.get 1 == [7]) = true := by decide

theorem test_v7_4 : ends (machine (fastAt 16) 0x15 0 0 false [(fastAt 16, 0x3F000)]) (fun t =>
  shows t 0x15 0 0 (fastAt 17) && t.outputs == [(0, 0x15)]) = true := by decide

theorem test_v7_5_holds : step (machine (fastAt 16) 0x33333 0 0 false [(fastAt 16, 0xBB001)]) =
  .next (machine (fastAt 16) 0x33333 0 0 false [(fastAt 16, 0xBB001)]) := rfl

theorem test_output_to_a_busy_device_holds : ends ({ machine (fastAt 16) 0x15 0 0 false [(fastAt 16, 0x3F000)] with
  busy := State.reset.busy.set 0 true } : State) (fun t => shows t 0x15 0 0 (fastAt 16) && t.outputs == []) = true := by decide

theorem test_v7_6 : ends (machine (fastAt 21) 0x0 0x0 0x0 false [(fastAt 21, 0x39000)]) (fun t =>
  shows t 0x0 0x0 0x0 (fastAt 21) && t.ov == false) = true := by decide

theorem test_v7_7 : ends (machine (fastAt 16) 0x0 0x0 0x0 false [(fastAt 16, 0xba005)]) (fun t =>
  shows t 0x0 0x0 0x0 (fastAt 16) && t.ov == false && t.lock) = true := by decide

theorem test_v7_8 : ends (machine (fastAt 16) 0x0 0x0 0x0 false [(fastAt 16, 0x7d400)]) (fun t =>
  shows t 0x0 0x0 0x0 (fastAt 16) && t.ov == false) = true := by decide

theorem test_v7_9 : refuses (machine (fastAt 16) 0x0 0x0 0x0 false [(fastAt 16, 0x3c003)]) .function74 = true := by decide

theorem test_v7_12_with_70 : refuses (machine (fastAt 16) 0x0 0x0 0x0 false [(fastAt 16, 0x38009)]) .unknownDevice = true := by decide

/-- Levels 3 and perhaps 5 stimulated, level 3 current, level 5 to be entered at FAST:200. -/
def levels (five : Bool) (s : State) : State :=
  { s with
    cur := 3
    stim := ((Vector.replicate 7 false).set 3 true).set 5 five
    reentry := (Vector.replicate 7 (fastAt 0)).set 5 (fastAt 200) }

theorem test_v7_14 : ends ({ levels true (machine (fastAt 16) 1 2 3 true [(fastAt 16, 0x3E028)]) with lock := true } : State)
  (fun t => shows t 1 2 3 (fastAt 200) && t.ov && t.cur == 5 && t.stim.get 3 == false && t.stim.get 5 &&
    t.reentry.get 3 == fastAt 40 && t.lock == false && t.idle == false) = true := by decide

theorem test_v7_15_idles : ends (levels false (machine (fastAt 16) 1 2 3 true [(fastAt 16, 0x7E028)])) (fun t =>
  t.a == 1 && t.idle && t.cur == 3 && t.stim.get 3 == false && t.reentry.get 3 == mainAt 40) = true := by decide

theorem test_v7_15_resumes : (({ levels false (machine (mainAt 40) 1 2 3 true []) with
    stim := Vector.replicate 7 false
    reentry := (Vector.replicate 7 (fastAt 0)).set 3 (mainAt 40)
    idle := true
    env := [[.demand 3]] } : State).boundary.cur = 3) ∧
  (({ levels false (machine (mainAt 40) 1 2 3 true []) with
    stim := Vector.replicate 7 false
    reentry := (Vector.replicate 7 (fastAt 0)).set 3 (mainAt 40)
    idle := true
    env := [[.demand 3]] } : State).boundary.seq = mainAt 40) := by decide

/-- The machine of the vectors B1 to B4 after the instruction at FAST:16. -/
def broken (lock : Bool) (events : List EnvEvent) : State :=
  { levels false (machine (fastAt 17) 1 0 0 false []) with lock := lock, env := [events] }

theorem test_b1 : (broken false [.demand 5]).boundary.reentry.get 3 = fastAt 17 ∧ (broken false [.demand 5]).boundary.cur = 5 ∧
  (broken false [.demand 5]).boundary.seq = fastAt 200 ∧ (broken false [.demand 5]).boundary.a = 1 := by decide

theorem test_b2_locked : (broken true [.demand 5]).boundary.seq = fastAt 17 ∧ (broken true [.demand 5]).boundary.cur = 3 ∧
  (broken true [.demand 5]).boundary.stim.get 5 = true := by decide

theorem test_b4_masked : (broken false [.setSwitch 5 false, .demand 5]).boundary.cur = 3 ∧
  (broken false [.setSwitch 5 false, .demand 5]).boundary.stim.get 5 = true ∧
  (broken false [.demand 5, .setSwitch 5 false, .setSwitch 5 true]).boundary.cur = 5 := by decide

/-- R152: the current level is masked while LOCK is 0 and no other level is runnable. -/
theorem test_masked_level_idles : ends (broken false [.setSwitch 3 false]) (fun t =>
  t.idle && t.a == 1 && t.cur == 3 && t.stim.get 3 && t.reentry.get 3 == fastAt 17 && t.lock == false) = true := by decide

/-- The PCR ceases to allow the current level, or comes to allow it again (R149). -/
theorem test_pcr_change_masks_and_frees_a_level :
  ends (broken false [.pcrChange { allowed := (Vector.replicate 7 true).set 3 false, content := 9 }]) (fun t =>
    t.idle && t.pcr.content == 9 && t.stim.get 3 && t.reentry.get 3 == fastAt 17) = true ∧
  (({ broken false [.pcrChange { allowed := Vector.replicate 7 true, content := 0 }] with
      pcr := { allowed := Vector.replicate 7 false, content := 0 }, idle := true } : State).boundary.idle = false) := by decide

theorem test_b5_again : (broken false [.demand 3, .pushButton 3]).boundary.cur = 3 ∧
  (broken false [.demand 3]).boundary.seq = fastAt 17 := by decide

theorem test_transfer_writes_the_store : (broken false [.transfer [(mainAt 300, 5), (fastAt 5000, 6)]]).boundary.peek (mainAt 300) = some 5 ∧
  (broken false [.transfer [(mainAt 300, 5), (fastAt 5000, 6)]]).boundary.peek (fastAt 5000) = none := by decide

/-- R162: a machine with a transfer still to come is no launch state, and State.reset is one. -/
theorem test_launch_has_no_transfer_in_progress : State.reset.Launch ∧
  ¬({ State.reset with env := [[], [.demand 2, .transfer [(mainAt 300, 5)]]] } : State).Launch ∧
  ({ State.reset with env := [[], [.demand 2, .deliver 1 5]] } : State).Launch := by decide

theorem test_launch_runs_a_placed_word : ends (State.reset.withFetchWord 24 0x0B003) (fun t => shows t 3 0 0 (fastAt 1)) = true := by
  decide

theorem test_stepping_off_the_store : faults (machine (fastAt 1024) 0 0 0 false []) .sequenceOverrun = true := by decide

theorem test_times_of_s7 : approximateTime 0o60 false 4 .fast = some ⟨48, 48⟩ ∧ approximateTime 0o62 false 19 .main = some ⟨215, 215⟩ := by
  decide

/-! ## States and operands that meet the hypotheses of the statements, clause by clause, at the ends of their ranges -/

/-- A machine at FAST:16 with chosen words at the last places of both stores. -/
def sample : State :=
  machine (fastAt 16) 5 6 7 true [(fastAt 16, 0x0B003), (fastAt 1023, 200), (mainAt 8191, 3), (mainAt 200, 4)]

/-- Fields with L = 0 and K = 0. -/
def plainF (m : Bool) (n : BitVec 10) : Fields := ⟨false, m, .unmodified, n⟩

/-- Fields with L = 0 and K = 1, for an address beyond ten bits. -/
def byBF (m : Bool) (n : BitVec 10) : Fields := ⟨false, m, .byB, n⟩

/-- The sample with another B. -/
def sampleB (b : Word) : State := { sample with b := b }

theorem witness_EveryStepKeepsTheInvariant : sample.Inv ∧ ∃ t, step sample = .next t := ⟨by decide, _, rfl⟩

theorem witness_LaunchStateIsReadyToRun :
    sample.Launch ∧ sample.inRange (fastAt 0) = true ∧ sample.inRange (fastAt 1023) = true ∧
    sample.inRange (mainAt 8191) = true ∧ sample.env = [] ∧ sample.Holds sample.seq 0x0B003 := by decide

theorem witness_StepRunsTheDecodedInstruction :
    (sample.boundary.idle = false ∧ sample.boundary.Holds sample.boundary.seq 0x0B003) ∧
    sample.Quiet ∧ sample.Holds sample.seq 0x0B003 := by decide

theorem witness_FetchStopsWhereThereIsNoWord :
    (machine (fastAt 1024) 0 0 0 false []).boundary.idle = false ∧
    (machine (fastAt 1024) 0 0 0 false []).boundary.seq.addr = 1024 ∧
    (machine (fastAt 1024) 0 0 0 false []).boundary.size .fast = 1024 ∧
    (machine (mainAt 8193) 0 0 0 false []).boundary.size .main < 8193 ∧
    (machine (fastAt 1023) 0 0 0 false []).boundary.inRange (fastAt 1023) = true ∧
    (machine (fastAt 1023) 0 0 0 false []).boundary.peek (fastAt 1023) = none := by decide

theorem witness_CompletedInstructionSetsLockToL :
    (∃ t, exec (.loadB03 (plainF false 1)) sample = .next t) ∧ exec (.inputRead73 (plainF false 1)) sample = .next sample :=
  ⟨⟨_, rfl⟩, rfl⟩

theorem witness_OnlyFunction47ClearsOv :
    ∃ t, exec (.jumpOverflow47 (plainF false 7)) sample = .next t ∧ sample.ov = true ∧ t.ov = false := ⟨_, rfl, rfl, rfl⟩

theorem witness_InstructionsChangeOnlyWhatTheirRulesWrite :
    ∃ t, exec (.jumpAbs50 (plainF false 7)) sample = .next t ∧ writesA (.jumpAbs50 (plainF false 7)) = false ∧
      writesB (.jumpAbs50 (plainF false 7)) = false ∧ writesR (.jumpAbs50 (plainF false 7)) = false ∧
      touchesOv (.jumpAbs50 (plainF false 7)) = false ∧ writesStore (.jumpAbs50 (plainF false 7)) = false :=
  ⟨_, rfl, by decide⟩

theorem witness_InstructionsLeaveTheProgrammeLevelsAlone :
    ∃ t, exec (.jumpAbs50 (plainF false 7)) sample = .next t ∧ (Instr.jumpAbs50 (plainF false 7)).code ≠ 0o76 ∧
      (Instr.jumpAbs50 (plainF false 7)).code ≠ 0o77 ∧ (Instr.jumpAbs50 (plainF false 7)).code ≠ 0o70 ∧
      (Instr.jumpAbs50 (plainF false 7)).code ≠ 0o73 := ⟨_, rfl, by decide⟩

theorem witness_ReadReturnsTheLastWordWritten : ∃ t, sample.write (fastAt 1023) 9 = .ok t ∧ mainAt 1023 ≠ fastAt 1023 :=
  ⟨_, rfl, by decide⟩

theorem witness_AccessesOutsideTheStoreStop : sample.size (fastAt 1024).store ≤ (fastAt 1024).addr ∧
    sample.size (mainAt 8192).store ≤ (mainAt 8192).addr ∧
    (mainAt 8190).addr < sample.size (mainAt 8190).store ∧ sample.peek (mainAt 8190) = none := by decide

theorem witness_ModificationAddsTheSelectedRegister :
    (plainF false 1023).k = .unmodified ∧ (byBF false 1023).k = .byB ∧ (⟨false, false, .byA, 0⟩ : Fields).k = .byA ∧
    (⟨false, false, .byS, 0⟩ : Fields).k = .byS ∧ ({ sample with seq := mainAt (2 ^ 19 - 1) } : State).seq.addr < 2 ^ 19 := by decide

theorem witness_IndirectOperandsGoThroughTheFastStore :
    (plainF false 0).m = false ∧ (plainF true 1023).m = true ∧
    sample.Holds ⟨.fast, (sample.modifiedN (plainF true 1023)).toNat % 2 ^ 19⟩ 200 ∧
    (sampleB 7168).Holds ⟨.main, ((sampleB 7168).modifiedN (byBF true 1023)).toNat % 2 ^ 19⟩ 3 ∧
    (sampleB 0x80000).Holds ⟨.fast, ((sampleB 0x80000).modifiedN (byBF true 1023)).toNat % 2 ^ 19⟩ 200 := by decide

theorem witness_OperandsWithoutAWordStop :
    ((byBF true 0).m = true ∧
      (sampleB 8192).read (mainPlace (byBF true 0) (sampleB 8192).advance) = .error (.fault .addressOutOfRange)) ∧
    sample.read (fastPlace (plainF true 1022) sample.advance) = .error (.fault .unwrittenWord) ∧
    (fastOrIndirect (byBF false 0) (sampleB 1024).advance = .ok (fastAt 1024) ∧
      (sampleB 1024).read (fastAt 1024) = .error (.fault .addressOutOfRange)) ∧
    sample.read (directPlace (plainF true 201) sample.advance) = .error (.fault .unwrittenWord) := by decide

theorem witness_DoubleLengthNumbersReadBack : (-2 ^ 38 ≤ (-2 ^ 38 : Int) ∧ (-2 ^ 38 : Int) < 2 ^ 38) ∧
    -2 ^ 38 ≤ (2 ^ 38 - 1 : Int) ∧ (2 ^ 38 - 1 : Int) < 2 ^ 38 := by decide

theorem witness_Group0ResultsInB :
    literalOrMain (plainF false 1023) sample.advance = .ok 1023 ∧ literalOrMain (byBF true 1023) (sampleB 7168).advance = .ok 3 ∧
    (byBF true 0).m = true ∧ (sampleB 8192).inRange (mainPlace (byBF true 0) (sampleB 8192).advance) = false := by decide

theorem witness_Group1ResultsInA :
    literalOrMain (plainF false 1023) sample.advance = .ok 1023 ∧ literalOrMain (byBF true 1023) (sampleB 7168).advance = .ok 3 ∧
    (byBF true 0).m = true ∧ (sampleB 8192).inRange (mainPlace (byBF true 0) (sampleB 8192).advance) = false := by decide

theorem witness_Group0ResultsInStore : mainOnly (byBF true 1023) (sampleB 7168).advance = .ok (mainAt 8191) ∧
    (sampleB 7168).Holds (mainAt 8191) 3 ∧ (sampleB 7168).inRange (mainAt 8191) = true := by decide

theorem witness_Group1ResultsInStore : mainOnly (byBF true 1023) (sampleB 7168).advance = .ok (mainAt 8191) ∧
    (sampleB 7168).Holds (mainAt 8191) 3 ∧ (sampleB 7168).inRange (mainAt 8191) = true := by decide

theorem witness_StoreFunctionsOfGroups01WithoutAPlaceStop :
    (Instr.storeA17 (plainF false 0)).needsM1 = true ∧ (Instr.storeA17 (plainF false 0)).fields.m = false ∧
    (Instr.storeA17 (byBF true 0)).fields.m = true ∧
    (sampleB 8192).inRange (mainPlace (Instr.storeA17 (byBF true 0)).fields (sampleB 8192).advance) = false := by decide

theorem witness_Group2ResultsInB :
    (fastOrIndirect (plainF false 1023) sample.advance = .ok (fastAt 1023) ∧ sample.Holds (fastAt 1023) 200) ∧
    fastOrIndirect (plainF true 1023) sample.advance = .ok (mainAt 200) ∧ sample.Holds (mainAt 200) 4 := by decide

theorem witness_Group3ResultsInASetOv :
    (fastOrIndirect (plainF false 1023) sample.advance = .ok (fastAt 1023) ∧ sample.Holds (fastAt 1023) 200) ∧
    fastOrIndirect (plainF true 1023) sample.advance = .ok (mainAt 200) ∧ sample.Holds (mainAt 200) 4 := by decide

theorem witness_Functions33And37MoveAWord :
    fastOrIndirect (plainF true 1023) sample.advance = .ok (mainAt 200) ∧ sample.Holds (mainAt 200) 4 ∧
    sample.inRange (mainAt 200) = true ∧
    (fastOrIndirect (byBF false 0) (sampleB 1024).advance = .ok (fastAt 1024) ∧ (sampleB 1024).inRange (fastAt 1024) = false) ∧
    (sampleB 1024).inRange (fastPlace (byBF true 0) (sampleB 1024).advance) = false ∧
    fieldF 0x1B000 = 0o33 ∧ fieldF 0x1F000 = 0o37 := by decide

theorem witness_Group2ResultsInStore :
    fastOrIndirect (plainF true 1023) sample.advance = .ok (mainAt 200) ∧ sample.Holds (mainAt 200) 4 ∧
    sample.inRange (mainAt 200) = true ∧
    (fastOrIndirect (byBF false 0) (sampleB 1024).advance = .ok (fastAt 1024) ∧ (sampleB 1024).inRange (fastAt 1024) = false) ∧
    (fastOrIndirect (plainF true 1023) (sample.poke (fastAt 1023) 8192).advance = .ok (mainAt 8192) ∧
      (sample.poke (fastAt 1023) 8192).inRange (mainAt 8192) = false) ∧
    (sampleB 1024).inRange (fastPlace (byBF true 0) (sampleB 1024).advance) = false := by decide

theorem witness_Group3ResultsInStoreSetOv :
    fastOrIndirect (plainF false 1023) sample.advance = .ok (fastAt 1023) ∧ sample.Holds (fastAt 1023) 200 := by decide

theorem witness_CountingJumpsCountAndJumpTogether :
    (sample.b ≠ 0 ∧ sample.inRange (directPlace (plainF false 1023) sample.advance) = true) ∧ (sampleB 0).b = 0 ∧
    (sampleB 1).b ≠ 0 ∧ (sampleB 1).inRange (directPlace (byBF false 1023) (sampleB 1).advance) = false := by decide

theorem witness_Function43LinksAndJumps :
    sample.inRange (directPlace (plainF false 1023) sample.advance) = true ∧
    (sampleB 1).inRange (directPlace (byBF false 1023) (sampleB 1).advance) = false := by decide

theorem witness_Function44JumpsOnNonNegativeA :
    (({ sample with a := 0 } : State).a.getLsbD 19 = false ∧
      ({ sample with a := 0 } : State).inRange (directPlace (plainF false 1023) ({ sample with a := 0 } : State).advance) = true) ∧
    ({ sample with a := 0x80000 } : State).a.getLsbD 19 = true ∧
    (sampleB 1).a.getLsbD 19 = false ∧ (sampleB 1).inRange (directPlace (byBF false 1023) (sampleB 1).advance) = false := by decide

theorem witness_Functions42And45And46JumpOnTheirConditions :
    sample.inRange (directPlace (plainF false 1023) sample.advance) = true ∧
    (sampleB 0).b = 0 ∧ ({ sample with a := 0x80000 } : State).a.getLsbD 19 = true ∧ ({ sample with a := 0 } : State).a = 0 ∧
    sample.b ≠ 0 ∧ ({ sample with a := 0x7FFFF } : State).a.getLsbD 19 = false ∧ sample.a ≠ 0 ∧
    ({ sampleB 1 with a := 0 } : State).inRange (directPlace (byBF false 1023) ({ sampleB 1 with a := 0 } : State).advance) = false ∧
    ({ sampleB 1 with a := 0xFFFFF } : State).inRange
      (directPlace (byBF false 1023) ({ sampleB 1 with a := 0xFFFFF } : State).advance) = false ∧
    ({ sampleB 0 with a := 1024 } : State).inRange
      (directPlace ⟨false, false, .byA, 0⟩ ({ sampleB 0 with a := 1024 } : State).advance) = false ∧
    fieldF 0x22000 = 0o42 ∧ fieldF 0x25000 = 0o45 ∧ fieldF 0x26000 = 0o46 := by decide

theorem witness_Function47ClearsOvAndJumps :
    (sample.ov = true ∧ sample.inRange (directPlace (plainF false 1023) sample.advance) = true) ∧
    ({ sample with ov := false } : State).ov = false ∧
    (sampleB 1).ov = true ∧ (sampleB 1).inRange (directPlace (byBF false 1023) (sampleB 1).advance) = false := by decide

theorem witness_JumpByTheLinkReturnsToTheCaller :
    sample.seq.addr + 1 < 2 ^ 19 ∧ (∃ t, exec (.subEntry43 (plainF true 200)) sample = .next t ∧ (sampleB 17).b = t.b) ∧
    (byBF false 0).k = .byB ∧ (byBF false 0).n = 0 ∧ (byBF false 0).m = decide (sample.seq.store = .main) ∧
    (sampleB 17).inRange (nextPlace sample.seq) = true := ⟨by decide, ⟨_, rfl, by decide⟩, by decide⟩

theorem witness_UnconditionalJumpsGoWhereTheyName :
    sample.inRange (directPlace (plainF false 1023) sample.advance) = true ∧
    (sampleB 1).inRange (directPlace (byBF false 1023) (sampleB 1).advance) = false ∧
    (((sample.seq.addr + 1 : Int) - (sample.advance.modifiedN (plainF false 17)).toNat - (0 : Nat)) % 2 ^ 19 = 0 ∧
      sample.inRange ⟨storeOf false, 0⟩ = true) ∧
    (((sample.seq.addr + 1 : Int) - (sample.advance.modifiedN (plainF false 18)).toNat - (2 ^ 19 - 1 : Nat)) % 2 ^ 19 = 0 ∧
      sample.inRange ⟨storeOf false, 2 ^ 19 - 1⟩ = false) := by decide

theorem witness_SelfJumpRunsForEver :
    (machine (fastAt 16) 0 0 0 false [(fastAt 16, 0x29001)]).env = [] ∧
    (machine (fastAt 16) 0 0 0 false [(fastAt 16, 0x29001)]).idle = false ∧
    (machine (fastAt 16) 0 0 0 false [(fastAt 16, 0x29001)]).best = some (machine (fastAt 16) 0 0 0 false [(fastAt 16, 0x29001)]).cur ∧
    (machine (fastAt 16) 0 0 0 false [(fastAt 16, 0x29001)]).seq.addr < 2 ^ 19 ∧
    (machine (fastAt 16) 0 0 0 false [(fastAt 16, 0x29001)]).Holds (fastAt 16) (encode (.jumpRel51 (plainF false 1))) ∧
    storeOf (plainF false 1).m = (fastAt 16).store := by decide

theorem witness_Functions52And53FillARegister :
    sample.Holds (directPlace (plainF false 1023) sample.advance) 200 ∧ sample.Holds (directPlace (plainF true 200) sample.advance) 4 ∧
    (sampleB 1).inRange (directPlace (byBF false 1023) (sampleB 1).advance) = false ∧
    fieldF 0x2A000 = 0o52 ∧ fieldF 0x2B000 = 0o53 := by decide

theorem witness_CountingAStoreWord : sample.Holds (directPlace (plainF false 1023) sample.advance) 200 := by decide

theorem witness_Functions56And57WriteTheStore :
    sample.Holds (directPlace (plainF false 1023) sample.advance) 200 ∧
    sample.inRange (directPlace (plainF false 1023) sample.advance) = true ∧
    (sampleB 1).inRange (directPlace (byBF false 1023) (sampleB 1).advance) = false ∧
    fieldF 0x2E000 = 0o56 ∧ fieldF 0x2F000 = 0o57 := by decide

theorem witness_LogicalShiftMovesTheBitsOfA :
    (sample.advance.modifiedN (plainF false 1023)).toNat < 1024 ∧ 20 ≤ (sample.advance.modifiedN (plainF false 20)).toNat ∧
    1024 ≤ ((sampleB 1).advance.modifiedN (byBF false 1023)).toNat := by decide

/-- The sample with other contents of A and R. -/
def sampleAR (a r : Word) : State := { sample with a := a, r := r }

theorem witness_ArithmeticalShiftMultipliesA :
    ((sampleAR 0xFFFFF 0).advance.modifiedN (plainF false 19)).toNat < 1024 ∧
    sint 0x80000 = sint (sampleAR 0xFFFFF 0).a * 2 ^ ((sampleAR 0xFFFFF 0).advance.modifiedN (plainF false 19)).toNat ∧
    (∀ x : Word, sint x ≠ sint (sampleAR 0x40000 0).a * 2 ^ ((sampleAR 0x40000 0).advance.modifiedN (plainF false 1)).toNat) ∧
    1024 ≤ ((sampleB 1).advance.modifiedN (byBF false 1023)).toNat := by
  refine ⟨by decide, by decide, fun x => ?_, by decide⟩
  rw [show sint (sampleAR 0x40000 0).a * 2 ^ ((sampleAR 0x40000 0).advance.modifiedN (plainF false 1)).toNat = 2 ^ 19 by decide]
  have := @BitVec.toInt_lt 20 x
  simp only [sint]
  omega

theorem witness_DoubleShiftMultipliesAR :
    ((sampleAR 0 0x40001).advance.modifiedN (plainF false 1)).toNat < 1024 ∧
    ((sampleAR 0 0x40001).r.getLsbD 19 = false ∧ (0x00002 : Word).getLsbD 19 = false ∧
      sint 0x00001 * 2 ^ 19 + (0x00002 : Word).toNat =
        (sint (sampleAR 0 0x40001).a * 2 ^ 19 + (sampleAR 0 0x40001).r.toNat) *
          2 ^ ((sampleAR 0 0x40001).advance.modifiedN (plainF false 1)).toNat) ∧
    (∀ x y : Word, y.getLsbD 19 = false →
      sint x * 2 ^ 19 + y.toNat ≠ (sint (sampleAR 0x40000 0).a * 2 ^ 19 + (sampleAR 0x40000 0).r.toNat) *
        2 ^ ((sampleAR 0x40000 0).advance.modifiedN (plainF false 1)).toNat) ∧
    (sampleAR 0 0x80001).r.getLsbD 19 = true ∧
    1024 ≤ ((sampleB 1).advance.modifiedN (byBF false 1023)).toNat := by
  refine ⟨by decide, by decide, fun x y hy => ?_, by decide, by decide⟩
  rw [show (sint (sampleAR 0x40000 0).a * 2 ^ 19 + (sampleAR 0x40000 0).r.toNat) *
        2 ^ ((sampleAR 0x40000 0).advance.modifiedN (plainF false 1)).toNat = 2 ^ 38 by decide]
  have := @BitVec.toInt_lt 20 x
  have hy' : y.toNat < 2 ^ 19 := by
    by_contra c
    have := Nat.testBit_of_two_pow_le_and_two_pow_add_one_gt (not_lt.1 c) (by have := y.isLt; omega)
    simp [BitVec.getLsbD, this] at hy
  simp only [sint]
  omega

theorem witness_SquareRootIsTheFloorOfTheRoot :
    ((sampleAR 0 0).Holds (directPlace (plainF true 200) (sampleAR 0 0).advance) 4 ∧
      0 ≤ sint (sampleAR 0xFFFFC 0).a + sint (4 : Word) ∧ sint (sampleAR 0x7FFFB 0).a + sint (4 : Word) ≤ 2 ^ 19 - 1) ∧
    sint (sampleAR 0xFFFFB 0).a + sint (4 : Word) < 0 ∧ 2 ^ 19 - 1 < sint (sampleAR 0x7FFFC 0).a + sint (4 : Word) := by decide

/-- The sample with -1 at the last place of the fast store. -/
def sampleMinusOne : State := sample.poke (fastAt 1023) 0x80000

theorem witness_DoubleMultiplyIsExact :
    (sample.Holds (directPlace (plainF false 1023) sample.advance) 200 ∧ sint sample.a * sint (200 : Word) ≠ 2 ^ 38) ∧
    ({ sampleMinusOne with a := 0x80000 } : State).Holds
      (directPlace (plainF false 1023) ({ sampleMinusOne with a := 0x80000 } : State).advance) 0x80000 ∧
    sint ({ sampleMinusOne with a := 0x80000 } : State).a * sint (0x80000 : Word) = 2 ^ 38 := by decide

theorem witness_SingleMultiplyTruncatesAndClearsR :
    (sample.Holds (directPlace (plainF false 1023) sample.advance) 200 ∧ sint sample.a * sint (200 : Word) ≠ 2 ^ 38) ∧
    ({ sampleMinusOne with a := 0x80000 } : State).Holds
      (directPlace (plainF false 1023) ({ sampleMinusOne with a := 0x80000 } : State).advance) 0x80000 ∧
    sint ({ sampleMinusOne with a := 0x80000 } : State).a * sint (0x80000 : Word) = 2 ^ 38 := by decide

theorem witness_DivisionMeetsItsRelation :
    (sampleAR 0 7).Holds (directPlace (plainF true 200) (sampleAR 0 7).advance) 4 ∧ (sampleAR 0 7).r.getLsbD 19 = false ∧
    sint (4 : Word) ≠ 0 ∧ |sint (sampleAR 0 7).a * 2 ^ 19 + (sampleAR 0 7).r.toNat| < |sint (4 : Word)| * 2 ^ 19 ∧
    |sint (sampleAR 3 0x7FFFF).a * 2 ^ 19 + (sampleAR 3 0x7FFFF).r.toNat| < |sint (4 : Word)| * 2 ^ 19 ∧
    sint (sampleAR 0 8).a * 2 ^ 19 + (sampleAR 0 8).r.toNat = 2 * sint (4 : Word) := by decide

theorem witness_DivisionOutsideItsDomainStops :
    (sampleAR 0 0x80000).Holds (directPlace (plainF true 200) (sampleAR 0 0x80000).advance) 4 ∧
    (sampleAR 0 0x80000).r.getLsbD 19 = true ∧
    ((sample.poke (mainAt 200) 0).Holds (directPlace (plainF true 200) (sample.poke (mainAt 200) 0).advance) 0 ∧
      (sample.poke (mainAt 200) 0).r.getLsbD 19 = false ∧ sint (0 : Word) = 0) ∧
    (sampleAR 4 0).r.getLsbD 19 = false ∧ sint (4 : Word) ≠ 0 ∧
    |sint (4 : Word)| * 2 ^ 19 ≤ |sint (sampleAR 4 0).a * 2 ^ 19 + (sampleAR 4 0).r.toNat| := by decide

theorem witness_DirectTransfersMoveOneWord :
    deviceNumber (plainF false 1) (withTape [3] sample).advance = .ok 1 ∧ (1 : Device) ≠ pcrDevice ∧
    (withTape [3] sample).busy.get 1 = false ∧ (withTape [3] sample).inputs.get 1 = [3] ∧ (1 : Device) = tapeReader ∧
    deviceNumber (plainF false 0) sample.advance = .ok 0 ∧ (0 : Device) ≠ tapeReader := by decide

theorem witness_DeviceNotReadyHolds :
    deviceNumber (plainF false 1) sample.advance = .ok 1 ∧ (1 : Device) ≠ pcrDevice ∧ sample.inputs.get 1 = [] ∧
    ({ sample with busy := sample.busy.set 1 true } : State).busy.get 1 = true := by decide

theorem witness_DeviceTwoIsTheProgramControlRegister : deviceNumber (plainF false 2) sample.advance = .ok pcrDevice := by decide

/-- The sample with a device 3 and a device 15 that the platform adds. -/
def withPlatform : State :=
  { sample with params := { sample.params with platform := ((Vector.replicate 16 false).set 3 true).set 15 true } }

theorem witness_DeviceNumberIsTheModifiedN :
    (sample.advance.modifiedN (plainF false 2)).toNat ≤ 2 ∧ 16 ≤ (sample.advance.modifiedN (plainF false 16)).toNat ∧
    (3 : Device).val = (sample.advance.modifiedN (plainF false 3)).toNat ∧ sample.hasDevice 3 = false ∧
    (15 : Device).val = (sample.advance.modifiedN (plainF false 15)).toNat ∧ sample.hasDevice 15 = false ∧
    (3 : Device).val = (withPlatform.advance.modifiedN (plainF false 3)).toNat ∧ withPlatform.hasDevice 3 = true ∧
    (15 : Device).val = (withPlatform.advance.modifiedN (plainF false 15)).toNat ∧ withPlatform.hasDevice 15 = true := by decide

/-- A machine that stands at a stop instruction. -/
def stopped (w : Word) : State := machine (fastAt 16) 0 0 0 false [(fastAt 16, w)]

theorem witness_DynamicStopRepeatsForEver :
    (stopped 0x39000).env = [] ∧ (stopped 0x39000).idle = false ∧ (stopped 0x39000).best = some (stopped 0x39000).cur ∧
    (stopped 0x39000).Holds (stopped 0x39000).seq 0x39000 ∧ decode 0x39000 = .stop71 (plainF false 0) ∧
    decode 0x3A000 = .stop72 (plainF false 0) ∧ decode 0x3D000 = .stop75 (plainF false 0) := by decide

theorem witness_Function76BreaksToTheBestLevel :
    (levels true sample).inRange (directPlace (plainF false 1023) (levels true sample).advance) = true ∧
    (levels true sample).clearOwnStimulus.best = some 5 ∧ (levels false sample).clearOwnStimulus.best = none ∧
    (sampleB 1).inRange (directPlace (byBF false 1023) (sampleB 1).advance) = false := by decide

theorem witness_BreakOnAStimulusSwitchesLevel :
    ((broken false [.demand 5]).idle = false ∧ (broken false [.demand 5]).lock = false ∧
      (broken false [.demand 5]).environment.best = some 5 ∧ (5 : Level) ≠ (broken false [.demand 5]).cur) ∧
    (levels true sample).idle = false ∧ (levels true sample).lock = false ∧
    (levels true sample).environment.best = some 5 ∧ (5 : Level) ≠ (levels true sample).cur := by decide

theorem witness_LockHoldsOffTheBreak :
    (broken true [.demand 5, .pushButton 6]).idle = false ∧ (broken true [.demand 5, .pushButton 6]).lock = true ∧
    (broken true [.demand 5, .pushButton 6]).stim.get 3 = true ∧
    (broken true [.demand 5, .pushButton 6]).env = [[.demand 5, .pushButton 6]] ∧
    EnvEvent.demand 5 ∈ [EnvEvent.demand 5, .pushButton 6] ∧ EnvEvent.pushButton 6 ∈ [EnvEvent.demand 5, .pushButton 6] := by decide

theorem witness_IdlingEndsWithARunnableLevel :
    ((broken false [.setSwitch 3 false]).idle = false ∧ (broken false [.setSwitch 3 false]).lock = false ∧
      (broken false [.setSwitch 3 false]).environment.best = none) ∧
    ({ broken false [.setSwitch 3 false] with idle := true } : State).environment.best = none ∧
    ({ broken false [.demand 0] with idle := true, stim := Vector.replicate 7 false } : State).environment.best = some 0 ∧
    ({ broken false [.pushButton 6] with idle := true, stim := Vector.replicate 7 false } : State).environment.best = some 6 := by
  decide

theorem witness_BestLevelOutranksTheOthers :
    (levels true sample).best = some 5 ∧ (levels true sample).runnable 3 = true ∧ (3 : Level) ≠ 5 ∧
    ({ sample with stim := Vector.replicate 7 false } : State).best = none ∧
    outranks sample.params 6 5 = true ∧ outranks sample.params 5 0 = true := by decide

theorem witness_EnvironmentLeavesTheProcessorAlone :
    (((broken false [.demand 5]).env = [.demand 5] :: [] ∧ (∀ e ∈ [EnvEvent.demand 5], e.isTransfer = false) ∧
      ∀ e ∈ [EnvEvent.demand 5], e.isPcrChange = false) ∧
    sample.env = [] ∧ (broken false []).env = [] :: [] ∧
    sample.inRange (mainAt 8191) = true ∧ sample.inRange (mainAt 8192) = false) ∧
    (broken false [.setSwitch 3 false]).NoTransfers ∧ ∃ t, step (broken false [.setSwitch 3 false]) = .next t :=
  ⟨by decide, by decide, _, rfl⟩

theorem witness_StoredWordIsObeyedWhenFetched :
    ∃ t, sample.write (fastAt 1023) 9 = .ok t ∧ ({ t with seq := fastAt 1023 } : State).Quiet := ⟨_, rfl, by decide⟩

end Sys2Proof.Tests
end

section
/-!
What the shared operations do, each said once: one entry of a vector, the level switch, the environment's events and what they
keep.
-/

namespace Sys2Proof.Machine

/-- One entry of a vector replaced: that entry and no other reads differently. -/
theorem vector_get_set {α : Type} {n : Nat} (v : Vector α n) (i j : Fin n) (x : α) :
    (v.set i.val x i.isLt).get j = if j = i then x else v.get j := by
  simp only [Vector.get_eq_getElem, Vector.getElem_set, Fin.ext_iff, eq_comm (a := j.val)]

/-! ## The level switch -/

/-- Entering the best level changes the level, S and the idling only. -/
theorem State.enterBest_frame (s : State) : ∃ c q d, s.enterBest = { s with cur := c, seq := q, idle := d } := by
  obtain ⟨l, -, e⟩ | ⟨-, e⟩ := s.enterBest_cases
  · exact ⟨l, s.reentry.get l, false, e⟩
  · exact ⟨s.cur, s.seq, true, e⟩

/-- A Program Break changes the levels, S and the idling only. -/
theorem State.programBreak_frame (s : State) :
    ∃ x c q d, s.programBreak = { s with reentry := x, cur := c, seq := q, idle := d } := by
  obtain ⟨c, q, d, e⟩ := s.saveReentry.enterBest_frame
  exact ⟨_, c, q, d, e⟩

/-- What a programmed break changes, from any place it is to be re-entered at: the same, and the stimuli. -/
theorem State.breakFrom_frame (s : State) (p : Place) :
    ∃ v x c q d, ({ s with seq := p } : State).clearOwnStimulus.programBreak =
      { s with stim := v, reentry := x, cur := c, seq := q, idle := d } := by
  obtain ⟨x, c, q, d, e⟩ := ({ s with seq := p } : State).clearOwnStimulus.programBreak_frame
  exact ⟨_, x, c, q, d, e⟩

/-- The level switching of step 1 changes the levels, S and the idling only. -/
theorem State.settleLevel_frame (s : State) :
    ∃ x c q d, s.settleLevel = { s with reentry := x, cur := c, seq := q, idle := d } := by
  obtain ⟨-, e⟩ | ⟨-, -, e⟩ | ⟨-, -, e⟩ := s.settleLevel_cases
  · obtain ⟨c, q, d, e'⟩ := s.enterBest_frame
    exact ⟨_, c, q, d, e.trans e'⟩
  · obtain ⟨x, c, q, d, e'⟩ := s.programBreak_frame
    exact ⟨x, c, q, d, e.trans e'⟩
  · exact ⟨_, _, _, _, e⟩

/-! ## The environment -/

/-- What the environment can reach: `t` with the stores, the PCR, the stimuli, the switches, the input data and Busy put back
is `s`. -/
def OutsideOnly (s t : State) : Prop :=
  { t with fast := s.fast, main := s.main, pcr := s.pcr, stim := s.stim, switch := s.switch, inputs := s.inputs,
           busy := s.busy } = s

theorem OutsideOnly.refl (s : State) : OutsideOnly s s := rfl

theorem OutsideOnly.trans {s t u : State} (h : OutsideOnly s t) (k : OutsideOnly t u) : OutsideOnly s u := by
  have back := congrArg (fun x : State => { x with
    fast := s.fast, main := s.main, pcr := s.pcr, stim := s.stim, switch := s.switch, inputs := s.inputs,
    busy := s.busy }) k
  exact back.trans h

/-- The fields of the processor are beyond the environment's reach. -/
theorem OutsideOnly.processor {s t : State} (h : OutsideOnly s t) :
    t.a = s.a ∧ t.b = s.b ∧ t.r = s.r ∧ t.ov = s.ov ∧ t.seq = s.seq ∧ t.lock = s.lock ∧ t.cur = s.cur ∧
      t.reentry = s.reentry ∧ t.idle = s.idle ∧ t.outputs = s.outputs := by
  rw [← h]
  simp

theorem OutsideOnly.poke (s : State) (p : Place) (v : Word) : OutsideOnly s (s.poke p v) := by
  obtain ⟨_ | _, _⟩ := p <;> rfl

/-- A word of a transfer is stored where it is in range, and nothing happens where it is not. -/
theorem State.transferWord_cases (s : State) (p : Place × Word) :
    (s.inRange p.1 = true ∧ s.transferWord p = s.poke p.1 p.2) ∨ (s.inRange p.1 = false ∧ s.transferWord p = s) := by
  unfold State.transferWord
  cases s.inRange p.1 <;> simp

/-- What every word of a transfer keeps, the whole transfer keeps. -/
theorem State.transfer_ind {P : State → Prop} {s : State} (writes : List (Place × Word)) (h : P s)
    (keep : ∀ u p, P u → P (u.transferWord p)) : P (s.happen (.transfer writes)) :=
  List.foldlRecOn writes State.transferWord h fun u hu p _ => keep u p hu

theorem State.happen_outsideOnly (s : State) (e : EnvEvent) : OutsideOnly s (s.happen e) := by
  cases e with
  | transfer writes =>
    refine State.transfer_ind writes (.refl s) fun u p hu => hu.trans ?_
    obtain ⟨-, word⟩ | ⟨-, word⟩ := u.transferWord_cases p <;> rw [word]
    · exact .poke u _ _
    · exact .refl u
  | demand | pushButton | setSwitch | deliver | setBusy | pcrChange => rfl

/-- What the events of this boundary keep, the environment keeps. -/
theorem State.environment_ind {P : State → Prop} (s : State) (h : P { s with env := s.env.tail })
    (keep : ∀ events ∈ s.env.head?, ∀ e ∈ events, ∀ u, P u → P (u.happen e)) : P s.environment := by
  unfold State.environment
  split
  · next he =>
    obtain ⟨⟩ := s
    cases he
    exact h
  · next events later he =>
    rw [he] at h keep
    exact List.foldlRecOn events State.happen h fun u hu e mem => keep events rfl e mem u hu

/-- The environment changes, of the fields no event reaches, its own schedule only. -/
theorem State.environment_outsideOnly (s : State) : OutsideOnly { s with env := s.env.tail } s.environment :=
  s.environment_ind (.refl _) fun _ _ e _ u hu => hu.trans (u.happen_outsideOnly e)

@[simp] theorem State.environment_env (s : State) : s.environment.env = s.env.tail :=
  congrArg State.env s.environment_outsideOnly

/-- Only a transfer changes a store word. -/
theorem State.happen_sameStores (s : State) {e : EnvEvent} (h : e.isTransfer = false) : SameStores s (s.happen e) := by
  cases e with
  | transfer => exact absurd h (by simp [EnvEvent.isTransfer])
  | demand | pushButton | setSwitch | deliver | setBusy | pcrChange => exact fun q => State.peek_congr rfl rfl q

/-- Of the environment's events only a PCR change changes the PCR. -/
theorem State.happen_pcr (s : State) {e : EnvEvent} (h : e.isPcrChange = false) : (s.happen e).pcr = s.pcr := by
  cases e with
  | pcrChange => exact absurd h (by simp [EnvEvent.isPcrChange])
  | transfer writes =>
    refine State.transfer_ind (P := fun u => u.pcr = s.pcr) writes rfl fun u p hu => ?_
    obtain ⟨-, word⟩ | ⟨-, word⟩ := u.transferWord_cases p <;> simp [word, hu]
  | demand | pushButton | setSwitch | deliver | setBusy => rfl

theorem State.environment_sameStores {s : State}
    (h : ∀ events ∈ s.env.head?, ∀ e ∈ events, e.isTransfer = false) : SameStores s s.environment :=
  s.environment_ind (P := SameStores s) (fun q => State.peek_congr rfl rfl q)
    fun events hv e he u hu q => (u.happen_sameStores (h events hv e he) q).trans (hu q)

theorem State.environment_pcr {s : State}
    (h : ∀ events ∈ s.env.head?, ∀ e ∈ events, e.isPcrChange = false) : s.environment.pcr = s.pcr :=
  s.environment_ind (P := fun u => u.pcr = s.pcr) rfl
    fun events hv e he u hu => (u.happen_pcr (h events hv e he)).trans hu

theorem State.poke_withEnv (s : State) (p : Place) (v : Word) (x : List (List EnvEvent)) :
    ({ s with env := x } : State).poke p v = { s.poke p v with env := x } := by
  obtain ⟨_ | _, _⟩ := p <;> rfl

/-- What an event does is independent of the schedule of the later ones. -/
theorem State.happen_withEnv (s : State) (e : EnvEvent) (x : List (List EnvEvent)) :
    ({ s with env := x } : State).happen e = { s.happen e with env := x } := by
  cases e with
  | transfer writes =>
    refine List.foldl_hom (fun u : State => { u with env := x }) fun u p => ?_
    have range : ({ u with env := x } : State).inRange p.1 = u.inRange p.1 := rfl
    unfold State.transferWord
    rw [range]
    split
    · exact State.poke_withEnv u p.1 p.2 x
    · rfl
  | demand | pushButton | setSwitch | deliver | setBusy | pcrChange => rfl

/-- The events of a boundary happen one after the other. -/
theorem State.environment_cons {s : State} {e : EnvEvent} {events : List EnvEvent} {later : List (List EnvEvent)}
    (h : s.env = (e :: events) :: later) :
    s.environment = ({ s.happen e with env := events :: later } : State).environment := by
  unfold State.environment
  rw [h]
  exact congrArg (events.foldl State.happen) (s.happen_withEnv e later)

theorem State.environment_nil {s : State} (h : s.env = []) : s.environment = s := by
  unfold State.environment
  rw [h]

theorem State.environment_quiet {s : State} {later : List (List EnvEvent)} (h : s.env = [] :: later) :
    s.environment = { s with env := later } := by
  unfold State.environment
  rw [h]
  rfl

/-- A transfer of one word stores it where its place is in range. -/
theorem State.happen_transfer_inRange {s : State} {p : Place} (w : Word) (h : s.inRange p = true) :
    s.happen (.transfer [(p, w)]) = s.poke p w :=
  if_pos h

theorem State.happen_transfer_outside {s : State} {p : Place} (w : Word) (h : s.inRange p = false) :
    s.happen (.transfer [(p, w)]) = s :=
  if_neg (by simp [h])

end Sys2Proof.Machine
end

section
/-!
What an instruction can do, said once: `exec_effect` places every next state under one of seven kinds of move, with the
registers that the instruction's rule writes on top.
-/

namespace Sys2Proof.Machine

/-- The instructions whose rule writes a register (R10, R11, R12). -/
def writesReg (i : Instr) : Reg → Bool
  | .a => writesA i
  | .b => writesB i
  | .r => writesR i

/-- `t` is `u` but for LOCK, the model's count of draws, and those of A, B, R and OV that the rule of `i` writes. The field
`rest` says that putting all of these back gives `u`. -/
structure RegistersOnly (i : Instr) (u t : State) : Prop where
  rest : { t with a := u.a, b := u.b, r := u.r, ov := u.ov, draws := u.draws, lock := u.lock } = u
  a : writesA i = false → t.a = u.a
  b : writesB i = false → t.b = u.b
  r : writesR i = false → t.r = u.r
  ov : touchesOv i = false → t.ov = u.ov

namespace RegistersOnly

variable {i : Instr} {u v t : State}

theorem refl (u : State) : RegistersOnly i u u := ⟨rfl, fun _ => rfl, fun _ => rfl, fun _ => rfl, fun _ => rfl⟩

theorem trans (h : RegistersOnly i u v) (k : RegistersOnly i v t) : RegistersOnly i u t where
  rest := by
    have back := congrArg (fun x : State => { x with
      a := u.a, b := u.b, r := u.r, ov := u.ov, draws := u.draws, lock := u.lock }) k.rest
    exact back.trans h.rest
  a w := (k.a w).trans (h.a w)
  b w := (k.b w).trans (h.b w)
  r w := (k.r w).trans (h.r w)
  ov w := (k.ov w).trans (h.ov w)

theorem lock (u : State) (l : Bool) : RegistersOnly i u { u with lock := l } :=
  ⟨rfl, fun _ => rfl, fun _ => rfl, fun _ => rfl, fun _ => rfl⟩

theorem put {g : Reg} (h : writesReg i g = true) (u : State) (x : Word) : RegistersOnly i u (u.put g x) := by
  cases g with
  | a => exact ⟨rfl, fun n => absurd (h.symm.trans n) nofun, fun _ => rfl, fun _ => rfl, fun _ => rfl⟩
  | b => exact ⟨rfl, fun _ => rfl, fun n => absurd (h.symm.trans n) nofun, fun _ => rfl, fun _ => rfl⟩
  | r => exact ⟨rfl, fun _ => rfl, fun _ => rfl, fun n => absurd (h.symm.trans n) nofun, fun _ => rfl⟩

/-- Both halves of {A,R} written, by a rule that writes both. -/
theorem putAR (ha : writesA i = true) (hr : writesR i = true) (u : State) (x y : Word) :
    RegistersOnly i u { u with a := x, r := y } :=
  (put (g := .a) ha u x).trans (.put (g := .r) hr _ y)

theorem putOv (h : touchesOv i = true) (u : State) (o : Bool) (n : Nat) : RegistersOnly i u { u with ov := o, draws := n } :=
  ⟨rfl, fun _ => rfl, fun _ => rfl, fun _ => rfl, fun k => absurd (h.symm.trans k) nofun⟩

theorem setOv (h : touchesOv i = true) (o : Bool) (u : State) : RegistersOnly i u (u.setOv o) := putOv h u _ u.draws

theorem drawOv (h : touchesOv i = true) (o : Bool) (u : State) : RegistersOnly i u (u.drawOv o) := by
  cases o
  · exact refl u
  · exact putOv h u _ _

theorem countDivision (u : State) (x d : Int) : RegistersOnly i u (u.countDivision x d) := by
  unfold State.countDivision
  split
  · exact ⟨rfl, fun _ => rfl, fun _ => rfl, fun _ => rfl, fun _ => rfl⟩
  · exact refl u

end RegistersOnly

/-- What an instruction does beside its registers: it stays at its place (a hold, a dynamic stop), passes to the next, passes
having stored a word, jumps, takes an input, sends an output, or breaks. -/
inductive Moves (i : Instr) (s : State) : State → Prop
  | stays : Moves i s s
  | passes : Moves i s s.advance
  | stores (p : Place) (v : Word) (hi : writesStore i = true) (hp : s.inRange p = true) : Moves i s (s.advance.poke p v)
  | jumps (p : Place) (hp : s.inRange p = true) : Moves i s { s with seq := p }
  | takes (x : Vector (List Word) 16) (hi : i.code = 0o70 ∨ i.code = 0o73) : Moves i s { s.advance with inputs := x }
  | sends (x : List (Device × Word)) (y : Pcr) (hi : i.code = 0o77) :
      Moves i s { s.advance with outputs := x, pcr := y }
  | breaks (p : Place) (hi : i.code = 0o76) (hp : s.inRange p = true) :
      Moves i s ({ s with seq := p } : State).clearOwnStimulus.programBreak

/-- One of the moves, and then the registers. -/
def Effect (i : Instr) (s t : State) : Prop := ∃ u, Moves i s u ∧ RegistersOnly i u t

/-! ## The effect of each shared rule -/

section
variable {i : Instr} {f : Fields} {s t w : State}

theorem obey_effect {rule : State → Result State} (h : obey f s rule = .next t)
    (hr : ∀ w, rule s.advance = .ok w → Effect i s w) : Effect i s t := by
  obtain ⟨w, hw, rfl⟩ := (obey_next_iff ..).1 h
  obtain ⟨u, hu, k⟩ := hr w hw
  exact ⟨u, hu, k.trans (.lock w f.l)⟩

theorem toRegister_effect {g : Reg} {flag : Bool → State → State} {op : Int → Int → Int}
    {operand : Fields → State → Result Word} (hg : writesReg i g = true)
    (hf : ∀ o u, RegistersOnly i u (flag o u)) (h : toRegister g flag op operand f s.advance = .ok w) : Effect i s w := by
  obtain ⟨v, -, rfl⟩ := (toRegister_ok_iff ..).1 h
  exact ⟨_, .passes, (RegistersOnly.put hg _ _).trans (hf _ _)⟩

theorem loadReg_effect {g : Reg} {operand : Fields → State → Result Word} (hg : writesReg i g = true)
    (h : loadReg g operand f s.advance = .ok w) : Effect i s w := by
  obtain ⟨v, -, rfl⟩ := (loadReg_ok_iff ..).1 h
  exact ⟨_, .passes, .put hg _ _⟩

theorem andToA_effect {loc : Fields → State → Result Place} (hg : writesA i = true)
    (h : andToA loc f s.advance = .ok w) : Effect i s w := by
  obtain ⟨v, -, rfl⟩ := (andToA_ok_iff ..).1 h
  exact ⟨_, .passes, .put (g := .a) hg _ _⟩

theorem toStore_effect {g : Reg} {flag : Bool → State → State} {op : Int → Int → Int}
    {loc : Fields → State → Result Place} (hs : writesStore i = true)
    (hf : ∀ o u, RegistersOnly i u (flag o u)) (h : toStore g flag op loc f s.advance = .ok w) : Effect i s w := by
  obtain ⟨p, v, -, ⟨hp, -⟩, rfl⟩ := (toStore_ok_iff ..).1 h
  exact ⟨_, .stores p _ hs hp, hf _ _⟩

theorem storeReg_effect {g : Reg} {loc : Fields → State → Result Place} (hs : writesStore i = true)
    (h : storeReg g loc f s.advance = .ok w) : Effect i s w := by
  obtain ⟨p, -, hp, rfl⟩ := (storeReg_ok_iff ..).1 h
  exact ⟨_, .stores p _ hs hp, .refl _⟩

theorem countStore_effect {k : Int} {loc : Fields → State → Result Place} (hs : writesStore i = true)
    (ho : touchesOv i = true) (h : countStore k loc f s.advance = .ok w) : Effect i s w := by
  obtain ⟨p, v, -, ⟨hp, -⟩, rfl⟩ := (countStore_ok_iff ..).1 h
  exact ⟨_, .stores p _ hs hp, .drawOv ho _ _⟩

theorem andToStore_effect {loc : Fields → State → Result Place} (hs : writesStore i = true)
    (h : andToStore loc f s.advance = .ok w) : Effect i s w := by
  obtain ⟨p, v, -, ⟨hp, -⟩, rfl⟩ := (andToStore_ok_iff ..).1 h
  exact ⟨_, .stores p _ hs hp, .refl _⟩

theorem jumpIf_effect {taken : State → Bool} (h : jumpIf taken f s.advance = .ok w) : Effect i s w := by
  obtain ⟨-, hp, rfl⟩ | ⟨-, rfl⟩ := (jumpIf_ok_iff ..).1 h
  · exact ⟨_, .jumps _ hp, .refl _⟩
  · exact ⟨_, .passes, .refl _⟩

theorem countAndJump_effect {k : Int} (hb : writesB i = true) (ho : touchesOv i = true)
    (h : countAndJump k f s.advance = .ok w) : Effect i s w := by
  obtain ⟨-, hp, rfl⟩ | ⟨-, rfl⟩ := (countAndJump_ok_iff ..).1 h
  · exact ⟨_, .jumps _ hp, (RegistersOnly.put (g := .b) hb _ _).trans (.drawOv ho _ _)⟩
  · exact ⟨_, .passes, .refl _⟩

theorem enterSubroutine_effect (hb : writesB i = true) (h : enterSubroutine f s.advance = .ok w) : Effect i s w := by
  obtain ⟨hp, rfl⟩ := (enterSubroutine_ok_iff ..).1 h
  exact ⟨_, .jumps _ hp, .put (g := .b) hb _ _⟩

theorem jumpOnOverflow_effect (ho : touchesOv i = true) (h : jumpOnOverflow f s.advance = .ok w) : Effect i s w := by
  obtain ⟨-, hp, rfl⟩ | ⟨-, rfl⟩ := (jumpOnOverflow_ok_iff ..).1 h
  · exact ⟨_, .jumps _ hp, .putOv ho _ _ s.draws⟩
  · exact ⟨_, .passes, .refl _⟩

theorem jumpTo_effect {target : Fields → State → Result Place} (h : jumpTo target f s.advance = .ok w) :
    Effect i s w := by
  obtain ⟨p, -, hp, rfl⟩ := (jumpTo_ok_iff ..).1 h
  exact ⟨_, .jumps p hp, .refl _⟩

theorem shiftA_effect (ha : writesA i = true) (h : shiftA f s.advance = .ok w) : Effect i s w := by
  obtain ⟨c, -, rfl⟩ := (shiftA_ok_iff ..).1 h
  exact ⟨_, .passes, .put (g := .a) ha _ _⟩

theorem shiftAArith_effect (ha : writesA i = true) (h : shiftAArith f s.advance = .ok w) : Effect i s w := by
  obtain ⟨c, -, -, rfl⟩ := (shiftAArith_ok_iff ..).1 h
  exact ⟨_, .passes, .put (g := .a) ha _ _⟩

theorem rootOfSum_effect {loc : Fields → State → Result Place} (ha : writesA i = true)
    (h : rootOfSum loc f s.advance = .ok w) : Effect i s w := by
  obtain ⟨m, -, -, -, rfl⟩ := (rootOfSum_ok_iff ..).1 h
  exact ⟨_, .passes, .put (g := .a) ha _ _⟩

theorem shiftAR_effect (ha : writesA i = true) (hr : writesR i = true) (h : shiftAR f s.advance = .ok w) :
    Effect i s w := by
  obtain ⟨c, v, -, -, -, rfl⟩ := (shiftAR_ok_iff ..).1 h
  exact ⟨_, .passes, .putAR ha hr _ _ _⟩

theorem multiplyDouble_effect {loc : Fields → State → Result Place} (ha : writesA i = true) (hr : writesR i = true)
    (h : multiplyDouble loc f s.advance = .ok w) : Effect i s w := by
  obtain ⟨v, -, rfl⟩ := (multiplyDouble_ok_iff ..).1 h
  exact ⟨_, .passes, .putAR ha hr _ _ _⟩

theorem multiplySingle_effect {loc : Fields → State → Result Place} (ha : writesA i = true) (hr : writesR i = true)
    (h : multiplySingle loc f s.advance = .ok w) : Effect i s w := by
  obtain ⟨v, -, rfl⟩ := (multiplySingle_ok_iff ..).1 h
  exact ⟨_, .passes, .putAR ha hr _ _ _⟩

theorem divideDouble_effect {loc : Fields → State → Result Place} (ha : writesA i = true) (hr : writesR i = true)
    (h : divideDouble loc f s.advance = .ok w) : Effect i s w := by
  obtain ⟨d, v, q, -, -, -, rfl⟩ := (divideDouble_ok_iff ..).1 h
  exact ⟨_, .passes, (RegistersOnly.putAR ha hr _ _ _).trans (.countDivision _ _ _)⟩

theorem divideSingle_effect {loc : Fields → State → Result Place} (ha : writesA i = true) (hr : writesR i = true)
    (h : divideSingle loc f s.advance = .ok w) : Effect i s w := by
  obtain ⟨d, v, q, -, -, -, rfl⟩ := (divideSingle_ok_iff ..).1 h
  exact ⟨_, .passes, (RegistersOnly.putAR ha hr _ _ _).trans (.countDivision _ _ _)⟩

theorem inputWith_effect {use : Word → State → State} (hi : i.code = 0o70 ∨ i.code = 0o73)
    (hu : ∀ x u, RegistersOnly i u (use x u)) (h : inputWith use f s = .next t) : Effect i s t := by
  obtain ⟨d, -, ⟨-, rfl⟩ | ⟨x, u, hx, rfl⟩⟩ := (inputWith_next_iff ..).1 h
  · exact ⟨_, .stays, .refl _⟩
  · obtain ⟨inputs, rfl⟩ := input_frame _ _ _ _ hx
    exact ⟨_, .takes inputs hi, (hu x _).trans (.lock _ _)⟩

theorem outputA_effect (hi : i.code = 0o77) (h : outputA f s = .next t) : Effect i s t := by
  obtain ⟨d, -, ⟨-, rfl⟩ | ⟨u, hu, rfl⟩⟩ := (outputA_next_iff ..).1 h
  · exact ⟨_, .stays, .refl _⟩
  · obtain ⟨outputs, pcr, rfl⟩ := output_frame _ _ _ hu
    exact ⟨_, .sends outputs pcr hi, .lock _ _⟩

theorem dynamicStop_effect (h : dynamicStop f s = .next t) : Effect i s t := by
  cases h
  exact ⟨_, .stays, .lock _ _⟩

theorem breakTo_effect (hi : i.code = 0o76) (h : breakTo f s.advance = .ok w) : Effect i s w := by
  obtain ⟨hp, rfl⟩ := (breakTo_ok_iff ..).1 h
  exact ⟨_, .breaks _ hi hp, .refl _⟩

/-- Every instruction that has a next state moves in one of the seven ways and writes no register but its rule's. -/
theorem exec_effect (h : exec i s = .next t) : Effect i s t := by
  cases i with
  | addB00 | subB01 | revB02 | addA10 | subA11 | revA12 | addB20 | subB21 | revB22 =>
    exact obey_effect h fun _ => toRegister_effect rfl (.drawOv rfl)
  | addA30 | subA31 | revA32 => exact obey_effect h fun _ => toRegister_effect rfl (.setOv rfl)
  | loadB03 | loadA13 | loadB23 | loadA33 | loadR53 => exact obey_effect h fun _ => loadReg_effect rfl
  | addBToStore04 | subBFromStore05 | revBFromStore06 | addAToStore14 | subAFromStore15 | revAFromStore16
  | addBToStore24 | subBFromStore25 | revBFromStore26 =>
    exact obey_effect h fun _ => toStore_effect rfl (.drawOv rfl)
  | addAToStore34 | subAFromStore35 | revAFromStore36 => exact obey_effect h fun _ => toStore_effect rfl (.setOv rfl)
  | storeB07 | storeA17 | storeB27 | storeA37 | storeR57 => exact obey_effect h fun _ => storeReg_effect rfl
  | jumpIncB40 | jumpDecB41 => exact obey_effect h fun _ => countAndJump_effect rfl rfl
  | jumpBZero42 | jumpAGeZero44 | jumpALtZero45 | jumpAZero46 => exact obey_effect h fun _ => jumpIf_effect
  | subEntry43 => exact obey_effect h fun _ => enterSubroutine_effect rfl
  | jumpOverflow47 => exact obey_effect h fun _ => jumpOnOverflow_effect rfl
  | jumpAbs50 | jumpRel51 => exact obey_effect h fun _ => jumpTo_effect
  | andA52 => exact obey_effect h fun _ => andToA_effect rfl
  | incStore54 | decStore55 => exact obey_effect h fun _ => countStore_effect rfl rfl
  | andStore56 => exact obey_effect h fun _ => andToStore_effect rfl
  | shiftLogical60 => exact obey_effect h fun _ => shiftA_effect rfl
  | shiftArith61 => exact obey_effect h fun _ => shiftAArith_effect rfl
  | shiftDouble62 => exact obey_effect h fun _ => shiftAR_effect rfl rfl
  | squareRoot63 => exact obey_effect h fun _ => rootOfSum_effect rfl
  | mulDouble64 => exact obey_effect h fun _ => multiplyDouble_effect rfl rfl
  | mulSingle65 => exact obey_effect h fun _ => multiplySingle_effect rfl rfl
  | divDouble66 => exact obey_effect h fun _ => divideDouble_effect rfl rfl
  | divSingle67 => exact obey_effect h fun _ => divideSingle_effect rfl rfl
  | inputAdd70 =>
    exact inputWith_effect (.inl rfl) (fun x u => (RegistersOnly.put (g := .a) rfl u _).trans (.drawOv rfl _ _)) h
  | inputRead73 => exact inputWith_effect (.inr rfl) (fun x u => .put (g := .a) rfl u x) h
  | stop71 | stop72 | stop75 => exact dynamicStop_effect h
  | autoControl74 => cases h
  | programBreak76 => exact obey_effect h fun _ => breakTo_effect rfl
  | output77 => exact outputA_effect rfl h

end

end Sys2Proof.Machine
end

section
/-!
The invariant: what keeps it, from one store word to one step (O4).
-/

namespace Sys2Proof.Machine

/-- The invariant speaks of the stores, the parameters, S and the re-entry addresses, and of nothing else. -/
theorem State.Inv.of_sameStores {s t : State} (h : s.Inv) (hf : t.fast = s.fast) (hm : t.main = s.main)
    (hp : t.params = s.params) (hq : s.reachable t.seq) (hr : ∀ l, s.reachable (t.reentry.get l)) : t.Inv := by
  obtain ⟨wf, wm, bf, bm, sf, sm, -, -⟩ := h
  simp only [State.Inv, State.reachable, hf, hm, hp, State.size_eq s t hp]
  exact ⟨wf, wm, bf, bm, sf, sm, hq, hr⟩

/-- A place in range is one that S may hold. -/
theorem State.reachable_of_inRange {s : State} {p : Place} (h : s.inRange p = true) : s.reachable p :=
  (of_decide_eq_true h).le

/-- Stepping off a place in range leads at most one past the end of its store (R16). -/
theorem State.reachable_nextPlace {s : State} {p : Place} (h : s.inRange p = true) : s.reachable (nextPlace p) :=
  Nat.succ_le_of_lt (of_decide_eq_true h)

theorem State.Inv.seq {s : State} (h : s.Inv) : s.reachable s.seq := by
  obtain ⟨-, -, -, -, -, -, hq, -⟩ := h
  exact hq

theorem State.Inv.reentry {s : State} (h : s.Inv) (l : Level) : s.reachable (s.reentry.get l) := by
  obtain ⟨-, -, -, -, -, -, -, hr⟩ := h
  exact hr l

theorem State.Inv.withSeq {s : State} (h : s.Inv) {p : Place} (hp : s.reachable p) : ({ s with seq := p } : State).Inv :=
  h.of_sameStores rfl rfl rfl hp h.reentry

/-- A word stored at a place in range keeps both stores canonical and within their sizes. -/
theorem State.Inv.poke {s : State} (h : s.Inv) {p : Place} (hp : s.inRange p = true) (v : Word) : (s.poke p v).Inv := by
  obtain ⟨wf, wm, bf, bm, rest⟩ := h
  have lt : p.addr < s.size p.store := of_decide_eq_true hp
  obtain ⟨_ | _, x⟩ := p
  · exact ⟨Memory.wf_write _ _ _ wf, wm, Memory.below_write _ _ _ _ bf lt, bm, rest⟩
  · exact ⟨wf, Memory.wf_write _ _ _ wm, bf, Memory.below_write _ _ _ _ bm lt, rest⟩

/-! ## The boundary -/

theorem State.Inv.happen {s : State} (h : s.Inv) (e : EnvEvent) : (s.happen e).Inv := by
  cases e with
  | transfer writes =>
    refine State.transfer_ind writes h fun u p hu => ?_
    obtain ⟨hp, word⟩ | ⟨-, word⟩ := u.transferWord_cases p <;> rw [word]
    · exact hu.poke hp _
    · exact hu
  | demand | pushButton | setSwitch | deliver | setBusy | pcrChange => exact h

theorem State.Inv.environment {s : State} (h : s.Inv) : s.environment.Inv :=
  s.environment_ind h fun _ _ e _ _ hu => hu.happen e

theorem State.Inv.saveReentry {s : State} (h : s.Inv) : s.saveReentry.Inv := by
  refine h.of_sameStores rfl rfl rfl h.seq fun l => ?_
  rw [State.saveReentry_reentry, vector_get_set]
  split
  · exact h.seq
  · exact h.reentry l

theorem State.Inv.enterBest {s : State} (h : s.Inv) : s.enterBest.Inv := by
  obtain ⟨l, -, e⟩ | ⟨-, e⟩ := s.enterBest_cases <;> rw [e]
  · exact h.withSeq (h.reentry l)
  · exact h

theorem State.Inv.programBreak {s : State} (h : s.Inv) : s.programBreak.Inv := h.saveReentry.enterBest

theorem State.Inv.boundary {s : State} (h : s.Inv) : s.boundary.Inv := by
  unfold State.boundary
  obtain ⟨-, e⟩ | ⟨-, -, e⟩ | ⟨-, -, e⟩ := s.environment.settleLevel_cases <;> rw [e]
  · exact h.environment.enterBest
  · exact h.environment.programBreak
  · exact h.environment

/-! ## The instruction -/

/-- Each move leaves S where it was, at the next place, at a place in range or at a re-entry address. The hypothesis that S is
in range, which a fetch gives, is what keeps `advance` within one past the end. -/
theorem Moves.inv {i : Instr} {s u : State} (move : Moves i s u) (h : s.Inv) (hs : s.inRange s.seq = true) : u.Inv := by
  have next : s.advance.Inv := h.withSeq (State.reachable_nextPlace hs)
  cases move with
  | stays => exact h
  | passes | takes | sends => exact next
  | stores p v _ hp => exact next.poke hp v
  | jumps p hp => exact h.withSeq (State.reachable_of_inRange hp)
  | breaks p _ hp =>
    have jumped : ({ s with seq := p } : State).clearOwnStimulus.Inv := h.withSeq (State.reachable_of_inRange hp)
    exact jumped.programBreak

/-- The registers, OV and LOCK are not in the invariant. -/
theorem RegistersOnly.inv {i : Instr} {u t : State} (write : RegistersOnly i u t) (h : u.Inv) : t.Inv := by
  rw [← write.rest] at h
  exact h

theorem exec_inv {i : Instr} {s t : State} (h : s.Inv) (hs : s.inRange s.seq = true) (he : exec i s = .next t) : t.Inv := by
  obtain ⟨u, move, write⟩ := exec_effect he
  exact write.inv (move.inv h hs)

/-- Settles O4: the boundary keeps the invariant, and so does the instruction, S being in range because a word was fetched
there. -/
theorem everyStepKeepsTheInvariant : Obligations.EveryStepKeepsTheInvariant := by
  intro s t h hstep
  obtain ⟨-, rfl⟩ | ⟨w, -, ⟨hs, -⟩, he⟩ := step_next s t hstep
  · exact h.boundary
  · exact exec_inv h.boundary hs he

end Sys2Proof.Machine
end

section
/-!
The frame of every instruction (O10, O11), read off its moves; the environment between instructions (O59); a drawn OV (O28).
-/

namespace Sys2Proof.Machine

namespace Moves

variable {i : Instr} {s u : State}

/-- A move leaves the registers and OV to the instruction's rule. -/
theorem registers (h : Moves i s u) : u.a = s.a ∧ u.b = s.b ∧ u.r = s.r ∧ u.ov = s.ov := by
  cases h with
  | breaks p =>
    obtain ⟨_, _, _, _, _, e⟩ := s.breakFrom_frame p
    simp [e]
  | stays | passes | stores | jumps | takes | sends => simp

theorem sameStores (h : Moves i s u) (hi : writesStore i = false) : SameStores s u := by
  cases h with
  | stores p v hs => exact absurd (hs.symm.trans hi) nofun
  | breaks p =>
    obtain ⟨_, _, _, _, _, e⟩ := s.breakFrom_frame p
    rw [e]
    exact fun q => State.peek_congr rfl rfl q
  | stays | passes | jumps | takes | sends => exact fun q => State.peek_congr rfl rfl q

/-- No move touches what only the environment and the launch set. -/
theorem surroundings (h : Moves i s u) :
    u.switch = s.switch ∧ u.busy = s.busy ∧ u.env = s.env ∧ u.params = s.params := by
  cases h with
  | breaks p =>
    obtain ⟨_, _, _, _, _, e⟩ := s.breakFrom_frame p
    simp [e]
  | stays | passes | stores | jumps | takes | sends => simp

theorem levels (h : Moves i s u) (hi : i.code ≠ 0o76) :
    u.stim = s.stim ∧ u.cur = s.cur ∧ u.reentry = s.reentry ∧ u.idle = s.idle := by
  cases h with
  | breaks p h76 => exact absurd h76 hi
  | stays | passes | stores | jumps | takes | sends => simp

theorem sent (h : Moves i s u) (hi : i.code ≠ 0o77) : u.pcr = s.pcr ∧ u.outputs = s.outputs := by
  cases h with
  | sends x y h77 => exact absurd h77 hi
  | breaks p =>
    obtain ⟨_, _, _, _, _, e⟩ := s.breakFrom_frame p
    simp [e]
  | stays | passes | stores | jumps | takes => simp

theorem taken (h : Moves i s u) (h70 : i.code ≠ 0o70) (h73 : i.code ≠ 0o73) : u.inputs = s.inputs := by
  cases h with
  | takes x hi => exact absurd hi (not_or.2 ⟨h70, h73⟩)
  | breaks p =>
    obtain ⟨_, _, _, _, _, e⟩ := s.breakFrom_frame p
    simp [e]
  | stays | passes | stores | jumps | sends => simp

end Moves

/-- Settles O10: a move leaves the registers and OV alone, and the writes on top of it are those of the rule. -/
theorem instructionsChangeOnlyWhatTheirRulesWrite : Obligations.InstructionsChangeOnlyWhatTheirRulesWrite := by
  intro i s t h
  obtain ⟨u, move, write⟩ := exec_effect h
  obtain ⟨ha, hb, hr, ho⟩ := move.registers
  refine ⟨fun n => (write.a n).trans ha, fun n => (write.b n).trans hb, fun n => (write.r n).trans hr,
    fun n => (write.ov n).trans ho, fun n q => ?_⟩
  have stores : t.peek q = u.peek q :=
    State.peek_congr (congrArg State.fast write.rest) (congrArg State.main write.rest) q
  exact stores.trans (move.sameStores n q)

/-- Settles O11: the registers' writes leave the rest of the machine as the move left it. -/
theorem instructionsLeaveTheProgrammeLevelsAlone : Obligations.InstructionsLeaveTheProgrammeLevelsAlone := by
  intro i s t h
  obtain ⟨u, move, ⟨rest⟩⟩ := exec_effect h
  rw [← rest] at move
  exact ⟨move.surroundings, move.levels, move.sent, move.taken⟩

/-! ## The environment -/

/-- Every step takes the events of one boundary off the schedule, and changes nothing else of it. -/
theorem step_env {s t : State} (h : step s = .next t) : t.env = s.env.tail := by
  have boundary : s.boundary.env = s.env.tail := by
    obtain ⟨x, c, q, d, e⟩ := s.environment.settleLevel_frame
    simp [State.boundary, e]
  obtain ⟨-, rfl⟩ | ⟨w, -, -, he⟩ := step_next s t h
  · exact boundary
  · obtain ⟨⟨-, -, env, -⟩, -⟩ := instructionsLeaveTheProgrammeLevelsAlone _ _ _ he
    exact env.trans boundary

/-- With no transfer in progress none of this boundary's events is one. -/
theorem State.NoTransfers.head {s : State} (h : s.NoTransfers) :
    ∀ events ∈ s.env.head?, ∀ e ∈ events, e.isTransfer = false :=
  fun events he => h events (List.mem_of_mem_head? he)

theorem State.NoTransfers.tail {s t : State} (h : s.NoTransfers) (he : t.env = s.env.tail) : t.NoTransfers :=
  fun events mem => h events (List.mem_of_mem_tail (he ▸ mem))

/-- Settles O59: the whole boundary by what each of its events keeps, then the events one by one. -/
theorem environmentLeavesTheProcessorAlone : Obligations.EnvironmentLeavesTheProcessorAlone := by
  refine ⟨fun s => ⟨?_, ?_, ?_, ?_, fun h => State.environment_nil h, fun _ h => State.environment_quiet h,
    fun _ _ _ h => State.environment_cons h⟩, fun s l d b w p ws v => ⟨?_, ?_, ?_, ?_, rfl, rfl, rfl, ?_, ?_⟩⟩
  · exact s.environment_outsideOnly.processor
  · intro events later h hn
    exact State.environment_sameStores (by simpa [h] using hn)
  · intro events later h hn
    exact State.environment_pcr (by simpa [h] using hn)
  · exact fun h => ⟨State.environment_sameStores h.head, fun t ht => h.tail (step_env ht)⟩
  · refine ⟨_, rfl, rfl, fun m => ?_⟩
    rw [vector_get_set]
    by_cases e : m = l <;> simp [e]
  · exact ⟨_, rfl, fun m => vector_get_set _ _ _ _⟩
  · exact ⟨_, rfl, fun c => vector_get_set _ _ _ _⟩
  · exact ⟨_, rfl, fun c => vector_get_set _ _ _ _⟩
  · intro h
    rw [State.happen_transfer_inRange w h]
    exact ⟨rfl, s.poke_storedOnly p w⟩
  · exact State.happen_transfer_outside w

/-! ## The draw of OV -/

/-- A draw of OV gives OV the value it had or 1, and counts itself. -/
theorem State.drawOv_true (s : State) :
    s.drawOv true = { s with ov := s.ov || Config.ovDraw s.draws, draws := s.draws + 1 } := rfl

/-- Settles O28: what is drawn is the old OV where the free value is 0, and 1 where it is 1. -/
theorem drawnOvIsOldOvOrOne : Obligations.DrawnOvIsOldOvOrOne := by
  intro s
  refine ⟨rfl, s.ov || Config.ovDraw s.draws, ?_, s.drawOv_true⟩
  cases Config.ovDraw s.draws
  · exact .inl (Bool.or_false _)
  · exact .inr (Bool.or_true _)

end Sys2Proof.Machine
end

section
/-!
Where an access, a fetch or a step stops and where it goes on: the stores' ends, the word at S, the launch states (O5, O7,
O13).
-/

namespace Sys2Proof.Machine

/-! ## Accesses -/

/-- The range check fails exactly at and beyond the size of the store (R31). -/
theorem State.inRange_eq_false_iff (s : State) (p : Place) : s.inRange p = false ↔ s.size p.store ≤ p.addr := by
  simp [State.inRange]

theorem State.read_of_outside {s : State} {p : Place} (h : s.inRange p = false) :
    s.read p = .error (.fault .addressOutOfRange) := by
  simp [State.read, h]

theorem State.read_of_unwritten {s : State} {p : Place} (h : s.inRange p = true) (hn : s.peek p = none) :
    s.read p = .error (.fault .unwrittenWord) := by
  simp [State.read, h, hn]

theorem State.write_of_outside {s : State} {p : Place} (v : Word) (h : s.inRange p = false) :
    s.write p v = .error (.fault .addressOutOfRange) := by
  simp [State.write, h]

theorem State.jump_of_outside {s : State} {p : Place} (h : s.inRange p = false) :
    s.jump p = .error (.fault .addressOutOfRange) := by
  simp [State.jump, h]

/-- Settles O13: all three accesses make the one range check, and only the read looks for a word. -/
theorem accessesOutsideTheStoreStop : Obligations.AccessesOutsideTheStoreStop := by
  intro s p v
  refine ⟨fun beyond => ?_, fun below => State.read_of_unwritten (decide_eq_true below)⟩
  have outside : s.inRange p = false := (s.inRange_eq_false_iff p).2 beyond
  exact ⟨State.read_of_outside outside, State.write_of_outside v outside, State.jump_of_outside outside⟩

/-! ## The fetch and the step -/

/-- Where stepping leads off the store, a fetch is an overrun (R16). -/
theorem State.fetch_of_pastEnd {s : State} (h : s.seq.addr = s.size s.seq.store) :
    s.fetch = .error (.fault .sequenceOverrun) :=
  if_pos h

theorem State.fetch_eq_read {s : State} (h : s.seq.addr ≠ s.size s.seq.store) : s.fetch = s.read s.seq :=
  if_neg h

/-- A step that fetches a word obeys the instruction it holds (R60). -/
theorem step_of_holds {s : State} {w : Word} (hi : s.boundary.idle = false) (h : s.boundary.Holds s.boundary.seq w) :
    step s = exec (decode w) s.boundary := by
  simp [step, hi, (fetch_ok_iff ..).2 h]

/-- A step whose fetch stops, stops for the fetch's reason. -/
theorem step_of_fetch_error {s : State} {e : Stop} (hi : s.boundary.idle = false) (h : s.boundary.fetch = .error e) :
    step s = e.outcome := by
  simp [step, hi, h]

/-- Settles O7: S is at the end of its store, beyond it, or at a word with no value, and the fetch tells the three apart. -/
theorem fetchStopsWhereThereIsNoWord : Obligations.FetchStopsWhereThereIsNoWord := by
  intro s hi
  refine ⟨fun atEnd => ?_, fun beyond => ?_, fun inside noWord => ?_⟩
  · exact step_of_fetch_error hi (State.fetch_of_pastEnd atEnd)
  · have outside := (s.boundary.inRange_eq_false_iff s.boundary.seq).2 beyond.le
    exact step_of_fetch_error hi ((State.fetch_eq_read beyond.ne').trans (State.read_of_outside outside))
  · have before : s.boundary.seq.addr < s.boundary.size s.boundary.seq.store := of_decide_eq_true inside
    exact step_of_fetch_error hi ((State.fetch_eq_read before.ne).trans (State.read_of_unwritten inside noWord))

/-! ## The quiet environment and the launch states -/

/-- In the quiet environment nothing happens between two instructions (R149). -/
theorem State.Quiet.boundary {s : State} (h : s.Quiet) : s.boundary = s := by
  obtain ⟨henv, hidle, hdue⟩ := h
  simp [State.boundary, State.environment_nil henv, State.settleLevel, hidle, hdue]

/-- In the quiet environment the instruction obeyed is the word at S. -/
theorem State.Quiet.step {s : State} {w : Word} (h : s.Quiet) (hw : s.Holds s.seq w) : step s = exec (decode w) s := by
  have hb := h.boundary
  obtain ⟨-, hidle, -⟩ := h
  have obeyed : Machine.step s = exec (decode w) s.boundary := step_of_holds (by rwa [hb]) (by rwa [hb])
  rwa [hb] at obeyed

/-- No break is due while the current level is the best one (R149). -/
theorem State.breakDue_of_best {s : State} (h : s.best = some s.cur) : s.breakDue = false := by
  simp [State.breakDue, h]

/-- A launch state with no event to come is quiet. -/
theorem State.Launch.quiet {s : State} (h : s.Launch) (henv : s.env = []) : s.Quiet := by
  obtain ⟨-, -, -, -, hidle, hbest, -⟩ := h
  exact ⟨henv, hidle, State.breakDue_of_best hbest⟩

/-- R162 leaves the registers, OV and the entry address open. -/
theorem State.Launch.withRegisters {s : State} (h : s.Launch) (a b r : Word) (ov : Bool) {p : Place}
    (hp : s.inRange p = true) : ({ s with a := a, b := b, r := r, ov := ov, seq := p } : State).Launch := by
  obtain ⟨hinv, -, rest⟩ := h
  have inv := hinv.withSeq (State.reachable_of_inRange hp)
  exact ⟨inv, hp, rest⟩

/-- R162 leaves every word of the stores open. -/
theorem State.Launch.poke {s : State} (h : s.Launch) {p : Place} (w : Word) (hp : s.inRange p = true) :
    (s.poke p w).Launch := by
  obtain ⟨hinv, rest⟩ := h
  refine ⟨hinv.poke hp w, ?_⟩
  obtain ⟨_ | _, _⟩ := p <;> exact rest

theorem State.reset_launch : State.reset.Launch := by
  refine ⟨?_, ?_, ?_, ?_, ?_, ?_, ?_⟩ <;> decide

/-- Settles O5: the launch state is one of R162's, which are closed under what R162 leaves open and are quiet. -/
theorem launchStateIsReadyToRun : Obligations.LaunchStateIsReadyToRun := by
  refine ⟨⟨State.reset_launch, fun s a b r ov p h hp => h.withRegisters a b r ov hp, fun s p w h hp => h.poke w hp,
    fun s w h henv hw => (h.quiet henv).step hw⟩, ?_⟩
  have quiet := State.reset_launch.quiet rfl
  obtain ⟨inv, -, -, lock, idle, best, -⟩ := State.reset_launch
  exact ⟨inv, lock, idle, rfl, best, quiet⟩

end Sys2Proof.Machine
end

section
/-!
OV is sticky (O9): neither Group 3's setting of OV nor a draw clears it, so that of the rules only the 47's can (R17, R62,
R80).
-/

namespace Sys2Proof.Machine

theorem State.setOv_keeps {u : State} (o : Bool) (h : u.ov = true) : (u.setOv o).ov = true := by simp [h]

theorem State.drawOv_keeps {u : State} (o : Bool) (h : u.ov = true) : (u.drawOv o).ov = true := by simp [h]

section
variable {i : Instr} {f : Fields} {s t w : State}

/-- An instruction leaves OV set when its rule does: only LOCK is written after it. -/
theorem obey_ov {rule : State → Result State} (h : obey f s rule = .next t)
    (hr : ∀ w, rule s.advance = .ok w → w.ov = true) : t.ov = true := by
  obtain ⟨w, hw, rfl⟩ := (obey_next_iff ..).1 h
  exact hr w hw

theorem toRegister_keeps_ov {g : Reg} {flag : Bool → State → State} {op : Int → Int → Int}
    {operand : Fields → State → Result Word} (hs : s.ov = true)
    (hf : ∀ {u : State} o, u.ov = true → (flag o u).ov = true)
    (h : toRegister g flag op operand f s.advance = .ok w) : w.ov = true := by
  obtain ⟨v, -, rfl⟩ := (toRegister_ok_iff ..).1 h
  cases g <;> exact hf _ hs

theorem toStore_keeps_ov {g : Reg} {flag : Bool → State → State} {op : Int → Int → Int}
    {loc : Fields → State → Result Place} (hs : s.ov = true)
    (hf : ∀ {u : State} o, u.ov = true → (flag o u).ov = true)
    (h : toStore g flag op loc f s.advance = .ok w) : w.ov = true := by
  obtain ⟨p, v, -, -, rfl⟩ := (toStore_ok_iff ..).1 h
  exact hf _ (by simp [hs])

theorem countStore_keeps_ov {k : Int} {loc : Fields → State → Result Place} (hs : s.ov = true)
    (h : countStore k loc f s.advance = .ok w) : w.ov = true := by
  obtain ⟨p, v, -, -, rfl⟩ := (countStore_ok_iff ..).1 h
  exact State.drawOv_keeps _ (by simp [hs])

theorem countAndJump_keeps_ov {k : Int} (hs : s.ov = true) (h : countAndJump k f s.advance = .ok w) : w.ov = true := by
  obtain ⟨-, -, rfl⟩ | ⟨-, rfl⟩ := (countAndJump_ok_iff ..).1 h
  · exact State.drawOv_keeps _ hs
  · exact hs

theorem inputAdd_keeps_ov (hs : s.ov = true) (h : inputWith addInput f s = .next t) : t.ov = true := by
  obtain ⟨d, -, ⟨-, rfl⟩ | ⟨x, u, hx, rfl⟩⟩ := (inputWith_next_iff ..).1 h
  · exact hs
  · obtain ⟨inputs, rfl⟩ := input_frame _ _ _ _ hx
    exact State.drawOv_keeps _ hs

theorem exec_ov_of_not_touchesOv (hi : touchesOv i = false) (h : exec i s = .next t) : t.ov = s.ov := by
  obtain ⟨-, -, -, hov, -⟩ := instructionsChangeOnlyWhatTheirRulesWrite i s t h
  exact hov hi

/-- An instruction other than a 47 that finds OV set leaves it set. -/
theorem exec_keeps_ov (h47 : ∀ f, i ≠ .jumpOverflow47 f) (hs : s.ov = true) (h : exec i s = .next t) : t.ov = true := by
  cases i with
  | addB00 | subB01 | revB02 | addA10 | subA11 | revA12 | addB20 | subB21 | revB22 =>
    exact obey_ov h fun _ => toRegister_keeps_ov hs State.drawOv_keeps
  | addA30 | subA31 | revA32 => exact obey_ov h fun _ => toRegister_keeps_ov hs State.setOv_keeps
  | addBToStore04 | subBFromStore05 | revBFromStore06 | addAToStore14 | subAFromStore15 | revAFromStore16
  | addBToStore24 | subBFromStore25 | revBFromStore26 =>
    exact obey_ov h fun _ => toStore_keeps_ov hs State.drawOv_keeps
  | addAToStore34 | subAFromStore35 | revAFromStore36 => exact obey_ov h fun _ => toStore_keeps_ov hs State.setOv_keeps
  | jumpIncB40 | jumpDecB41 => exact obey_ov h fun _ => countAndJump_keeps_ov hs
  | incStore54 | decStore55 => exact obey_ov h fun _ => countStore_keeps_ov hs
  | inputAdd70 => exact inputAdd_keeps_ov hs h
  | jumpOverflow47 f => exact absurd rfl (h47 f)
  | _ => exact (exec_ov_of_not_touchesOv rfl h).trans hs

end

/-- Settles O9: every other instruction leaves OV set. -/
theorem onlyFunction47ClearsOv : Obligations.OnlyFunction47ClearsOv := by
  intro i s t h hs ht
  by_contra no47
  have still : t.ov = true := exec_keeps_ov (fun f e => no47 ⟨f, e⟩) hs h
  exact absurd (still.symm.trans ht) nofun

end Sys2Proof.Machine
end

section
/-!
Modification and the image of S (O14), and the link that a 43 leaves and a 50 returns by (O30, O34).
-/

namespace Sys2Proof.Machine

/-- A sequence whose first part stops, stops for the same reason. -/
theorem Result.bind_of_error {α β : Type} {x : Result α} {e : Stop} (h : x = .error e) (k : α → Result β) :
    (x >>= k) = .error e := by
  subst h
  rfl

/-! ## Words as numbers -/

/-- Modification adds the selected register to N, modulo 2^20 (R29). -/
theorem State.modifiedN_toNat (s : State) (f : Fields) :
    (s.modifiedN f).toNat = (f.n.toNat + (s.modifier f.k).toNat) % 2 ^ 20 := by
  have cast : (f.n.toNat + uint (s.modifier f.k) : Int) = ((f.n.toNat + uint (s.modifier f.k) : Nat) : Int) := by simp
  rw [State.modifiedN, cast, word, BitVec.ofInt_natCast, BitVec.toNat_ofNat]

/-- With N = 0 the modified N is the register selected. -/
theorem State.modifiedN_of_n_zero {s : State} {f : Fields} (h : f.n = 0) : s.modifiedN f = s.modifier f.k := by
  refine BitVec.eq_of_toNat_eq ?_
  rw [State.modifiedN_toNat, h]
  simpa using (s.modifier f.k).isLt

/-- `addr19` is the word without bit 19 (R30). -/
theorem addr19_eq_mod (w : Word) : addr19 w = w.toNat % 2 ^ 19 := by
  simp [addr19]

/-- The image of a place is its store bit and its address (R15). -/
theorem imageOf_toNat {p : Place} (h : p.addr < 2 ^ 19) :
    (imageOf p).toNat = (if p.store = .main then 2 ^ 19 else 0) + p.addr := by
  rw [imageOf, BitVec.toNat_ofNat, Nat.mod_eq_of_lt h]
  split <;> omega

/-- The address of a place is read back from its image. -/
theorem addr19_imageOf {p : Place} (h : p.addr < 2 ^ 19) : addr19 (imageOf p) = p.addr := by
  rw [addr19_eq_mod, imageOf_toNat h]
  split <;> omega

/-- Settles O14: the four registers that K can select. -/
theorem modificationAddsTheSelectedRegister : Obligations.ModificationAddsTheSelectedRegister := by
  intro s f
  rw [State.modifiedN_toNat]
  refine ⟨fun k => ?_, fun k => ?_, fun k => ?_, fun k low => ?_⟩ <;> rw [k]
  · have small : f.n.toNat < 2 ^ 20 := f.n.isLt.trans (by decide)
    exact Nat.mod_eq_of_lt small
  · rfl
  · rfl
  · rw [State.modifier, imageOf_toNat low]

/-! ## The link -/

/-- A 43 whose target is out of range writes nothing (R102). -/
theorem enterSubroutine_of_outside {f : Fields} {s : State} (h : s.inRange (directPlace f s) = false) :
    enterSubroutine f s = .error (.fault .addressOutOfRange) :=
  Result.bind_of_error (State.jump_of_outside h) _

/-- Settles O30: S advanced is what the link is the image of. -/
theorem function43LinksAndJumps : Obligations.Function43LinksAndJumps := by
  intro f s
  refine ⟨fun inside => ?_, fun outside => ?_⟩
  · exact obey_of_ok ((enterSubroutine_ok_iff ..).2 ⟨by simpa using inside, rfl⟩)
  · exact obey_of_error (enterSubroutine_of_outside (by simpa using outside))

/-- What a 43 leaves in B. -/
theorem exec_subEntry43_link {f : Fields} {s t : State} (h : exec (.subEntry43 f) s = .next t) :
    t.b = imageOf (nextPlace s.seq) := by
  obtain ⟨u, hu, rfl⟩ := (obey_next_iff ..).1 h
  obtain ⟨-, rfl⟩ := (enterSubroutine_ok_iff ..).1 hu
  rfl

/-- A 50 whose place is in range goes there (R109). -/
theorem exec_jumpAbs50_of_inRange {g : Fields} {u : State} (h : u.inRange (directPlace g u.advance) = true) :
    exec (.jumpAbs50 g) u = .next (u.jumped g (directPlace g u.advance)) := by
  have direct : target50 g u.advance = .ok (directPlace g u.advance) := rfl
  have rule := (jumpTo_ok_iff target50 g u.advance _).2 ⟨_, direct, by simpa using h, rfl⟩
  exact obey_of_ok rule

/-- A place named by N = 0 and a B that holds the image of a place in M's store is that place. -/
theorem directPlace_of_image {g : Fields} {u : State} {p : Place} (hk : g.k = .byB) (hn : g.n = 0)
    (hm : g.m = decide (p.store = .main)) (hb : u.b = imageOf p) (low : p.addr < 2 ^ 19) : directPlace g u = p := by
  have addr : addr19 (u.modifiedN g) = p.addr := by
    rw [State.modifiedN_of_n_zero hn, hk, State.modifier, hb, addr19_imageOf low]
  have store : storeOf g.m = p.store := by
    rw [hm]
    cases p.store <;> rfl
  rw [directPlace, addr, store]

/-- Settles O34: B holds the image of the place after the 43, and M supplies the store that `addr19` drops. -/
theorem jumpByTheLinkReturnsToTheCaller : Obligations.JumpByTheLinkReturnsToTheCaller := by
  intro f g s t u low h43 hk hn hm hb inside
  have link : u.advance.b = imageOf (nextPlace s.seq) := hb.trans (exec_subEntry43_link h43)
  have target : directPlace g u.advance = nextPlace s.seq := directPlace_of_image hk hn hm link low
  rw [← target] at inside ⊢
  exact exec_jumpAbs50_of_inRange inside

end Sys2Proof.Machine
end

section
/-!
The double-length accumulator {A,R} (O17), its shift (O42) and the product that fills it (O44).
-/

namespace Sys2Proof.Machine

/-- The number that a word and a word with bit 19 clear stand for together (R13). -/
def doubleOf (x y : Word) : Int := sint x * 2 ^ 19 + y.toNat

/-- Bit 19 is clear exactly in the words below 2^19. -/
theorem getLsbD_19_eq_false_iff (y : Word) : y.getLsbD 19 = false ↔ y.toNat < 2 ^ 19 := by
  have msb : y.getLsbD 19 = y.msb := rfl
  rw [msb, BitVec.msb_eq_false_iff_two_mul_lt]
  omega

theorem doubleLength_of_clear (x : Word) {y : Word} (h : y.getLsbD 19 = false) :
    doubleLength x y = .ok (doubleOf x y) := by
  refine (doubleLength_ok_iff ..).2 ⟨h, ?_⟩
  rw [addr19_eq_mod, Nat.mod_eq_of_lt ((getLsbD_19_eq_false_iff y).1 h), doubleOf]

theorem doubleLength_of_set (x : Word) {y : Word} (h : y.getLsbD 19 = true) :
    doubleLength x y = .error (.refused .doubleLengthMalformed) := by
  simp [doubleLength, h]

theorem fitsDouble_iff (v : Int) : fitsDouble v = true ↔ -2 ^ 38 ≤ v ∧ v < 2 ^ 38 := by
  simp only [fitsDouble, Bool.and_eq_true, decide_eq_true_eq]
  omega

/-- A number in range, cut into its two halves, leaves bit 19 of the lower one clear and is the number they stand for. -/
theorem setDouble_halves {v : Int} (h : fitsDouble v = true) :
    (word (v % 2 ^ 19)).getLsbD 19 = false ∧ doubleOf (word (v / 2 ^ 19)) (word (v % 2 ^ 19)) = v := by
  obtain ⟨lo, hi⟩ := (fitsDouble_iff v).1 h
  have low : ((word (v % 2 ^ 19)).toNat : Int) = v % 2 ^ 19 := by
    rw [word, BitVec.toNat_ofInt]
    omega
  have high : sint (word (v / 2 ^ 19)) = v / 2 ^ 19 := BitVec.toInt_ofInt_eq_self (by decide) (by omega) (by omega)
  refine ⟨(getLsbD_19_eq_false_iff _).2 (by omega), ?_⟩
  rw [doubleOf, low, high]
  omega

/-- Two halves are what their own number puts into {A,R}. -/
theorem setDouble_doubleOf (s : State) (x : Word) {y : Word} (h : y.getLsbD 19 = false) :
    s.setDouble (doubleOf x y) = { s with a := x, r := y } := by
  have below := (getLsbD_19_eq_false_iff y).1 h
  have high : doubleOf x y / 2 ^ 19 = sint x := by
    rw [doubleOf]
    omega
  have low : doubleOf x y % 2 ^ 19 = y.toNat := by
    rw [doubleOf]
    omega
  rw [State.setDouble, high, low, word, word, BitVec.ofInt_toInt, BitVec.ofInt_natCast, BitVec.ofNat_toNat,
    BitVec.setWidth_eq]

theorem fitsDouble_doubleOf (x : Word) {y : Word} (h : y.getLsbD 19 = false) : fitsDouble (doubleOf x y) = true := by
  have below := (getLsbD_19_eq_false_iff y).1 h
  have lo : -2 ^ 19 ≤ sint x := BitVec.le_toInt x
  have hi : sint x < 2 ^ 19 := BitVec.toInt_lt
  rw [fitsDouble_iff, doubleOf]
  omega

/-- Settles O17: the halves of a number in range are well formed and stand for it. -/
theorem doubleLengthNumbersReadBack : Obligations.DoubleLengthNumbersReadBack := by
  intro s v lo hi
  obtain ⟨clear, number⟩ := setDouble_halves ((fitsDouble_iff v).2 ⟨lo, hi⟩)
  refine ⟨clear, ?_⟩
  rw [State.setDouble_a, State.setDouble_r, doubleLength_of_clear _ clear, number]

/-! ## The double-length shift -/

theorem shiftCount_of_small {f : Fields} {s : State} (h : (s.modifiedN f).toNat < 1024) :
    shiftCount f s = .ok (s.modifiedN f).toNat :=
  if_pos h

theorem shiftCount_of_large {f : Fields} {s : State} (h : 1024 ≤ (s.modifiedN f).toNat) :
    shiftCount f s = .error (.refused .shiftCountTooLarge) :=
  if_neg h.not_gt

/-- The shift of {A,R} once the count and R are in order: what is left is whether the result fits. -/
theorem shiftAR_of_clear {f : Fields} {s : State} (hc : (s.modifiedN f).toNat < 1024) (hr : s.r.getLsbD 19 = false) :
    shiftAR f s =
      if fitsDouble (doubleOf s.a s.r * 2 ^ (s.modifiedN f).toNat) then
        .ok (s.setDouble (doubleOf s.a s.r * 2 ^ (s.modifiedN f).toNat))
      else .error (.refused .arithShiftOverflow) := by
  rw [shiftAR, shiftCount_of_small hc, doubleLength_of_clear _ hr]
  rfl

theorem shiftAR_of_malformed {f : Fields} {s : State} (hc : (s.modifiedN f).toNat < 1024) (hr : s.r.getLsbD 19 = true) :
    shiftAR f s = .error (.refused .doubleLengthMalformed) := by
  rw [shiftAR, shiftCount_of_small hc, doubleLength_of_set _ hr]
  rfl

theorem shiftAR_of_large {f : Fields} {s : State} (h : 1024 ≤ (s.modifiedN f).toNat) :
    shiftAR f s = .error (.refused .shiftCountTooLarge) :=
  Result.bind_of_error (shiftCount_of_large h) _

/-- Settles O42: a result that two halves stand for fits, and one that fits has such halves. -/
theorem doubleShiftMultipliesAR : Obligations.DoubleShiftMultipliesAR := by
  intro f s
  refine ⟨fun small => ⟨fun x y hr hy number => ?_, fun hr noHalves => ?_, fun hr => ?_⟩, fun large => ?_⟩
  · refine obey_of_ok (u := { s.advance with a := x, r := y }) ?_
    have result : doubleOf s.advance.a s.advance.r * 2 ^ (s.advance.modifiedN f).toNat = doubleOf x y := number.symm
    rw [shiftAR_of_clear small hr, result, if_pos (fitsDouble_doubleOf x hy), setDouble_doubleOf _ x hy]
  · refine obey_of_error (e := .refused .arithShiftOverflow) ?_
    rw [shiftAR_of_clear small hr]
    refine if_neg fun fits => ?_
    obtain ⟨clear, number⟩ := setDouble_halves fits
    exact noHalves _ _ clear number
  · exact obey_of_error (shiftAR_of_malformed small hr)
  · exact obey_of_error (shiftAR_of_large large)

/-! ## The product -/

/-- An operand of Groups 5 and 6 is the word its place holds, S advanced or not. -/
theorem operandAt_direct {f : Fields} {s : State} {m : Word} (h : s.Holds (directPlace f s.advance) m) :
    operandAt direct f s.advance = .ok m :=
  (operandAt_ok_iff ..).2 ⟨_, rfl, by simpa using (State.read_ok_iff ..).2 h⟩

/-- Every product but -1 times -1 is a double-length number. -/
theorem fitsDouble_product {x m : Word} (h : sint x * sint m ≠ 2 ^ 38) : fitsDouble (sint x * sint m) = true := by
  have small : ∀ w : Word, |sint w| ≤ 2 ^ 19 := fun w => abs_le.2 ⟨BitVec.le_toInt w, BitVec.toInt_lt.le⟩
  have bound : |sint x * sint m| ≤ 2 ^ 19 * 2 ^ 19 := by
    rw [abs_mul]
    exact mul_le_mul (small x) (small m) (abs_nonneg _) (by decide)
  obtain ⟨lo, hi⟩ := abs_le.1 bound
  rw [fitsDouble_iff]
  omega

theorem product_overflow {loc : Fields → State → Result Place} {f : Fields} {s : State} {m : Word}
    (hm : operandAt loc f s = .ok m) (h : sint s.a * sint m = 2 ^ 38) :
    product loc f s = .error (.refused .multiplyOverflow) := by
  rw [product, hm]
  exact if_pos h

theorem multiplyDouble_overflow {loc : Fields → State → Result Place} {f : Fields} {s : State} {m : Word}
    (hm : operandAt loc f s = .ok m) (h : sint s.a * sint m = 2 ^ 38) :
    multiplyDouble loc f s = .error (.refused .multiplyOverflow) :=
  Result.bind_of_error (product_overflow hm h) _

/-- Settles O44: the halves are those that `setDouble` makes of the product. -/
theorem doubleMultiplyIsExact : Obligations.DoubleMultiplyIsExact := by
  intro f s m hm
  have operand := operandAt_direct hm
  refine ⟨fun fits => ?_, fun overflow => ?_⟩
  · obtain ⟨clear, number⟩ := setDouble_halves (fitsDouble_product fits)
    refine ⟨_, _, number, clear, ?_⟩
    exact obey_of_ok ((multiplyDouble_ok_iff ..).2 ⟨_, (product_ok_iff ..).2 ⟨m, operand, fits, rfl⟩, rfl⟩)
  · exact obey_of_error (multiplyDouble_overflow operand overflow)

end Sys2Proof.Machine
end

section
/-!
The stores (O12, O60), the places and values that operands stand for (O15), and where an operand has no word to be read (O16).
-/

namespace Sys2Proof.Machine

/-! ## Reading and fetching after a write -/

/-- A read depends on the range check and on the word at its place only. -/
theorem State.read_congr {s t : State} {q : Place} (hr : t.inRange q = s.inRange q) (hp : t.peek q = s.peek q) :
    t.read q = s.read q := by
  simp [State.read, hr, hp]

/-- A place that has received a word holds it. -/
theorem State.poke_holds {s : State} {p : Place} (h : s.inRange p = true) (v : Word) : (s.poke p v).Holds p v :=
  ⟨by simpa using h, s.peek_poke_same p v⟩

/-- Settles O12: a write that succeeds is a `poke` in range, which stores one word and moves no end of a store. -/
theorem readReturnsTheLastWordWritten : Obligations.ReadReturnsTheLastWordWritten := by
  intro s t p v written
  obtain ⟨inside, rfl⟩ := (State.write_ok_iff ..).1 written
  refine ⟨(State.read_ok_iff ..).2 (State.poke_holds inside v), fun q other => ?_⟩
  exact State.read_congr (s.poke_inRange p v q) (s.peek_poke_other p q v other)

/-- Settles O60: the place holds the word written, and in the quiet environment the word at S is the one obeyed. -/
theorem storedWordIsObeyedWhenFetched : Obligations.StoredWordIsObeyedWhenFetched := by
  intro s t p w written quiet
  obtain ⟨inside, rfl⟩ := (State.write_ok_iff ..).1 written
  have holds : ({ s.poke p w with seq := p } : State).Holds p w := State.poke_holds inside w
  exact quiet.step holds

/-! ## Places and operand values -/

section
variable {f : Fields} {s : State} {e : Stop}

theorem fastOrIndirect_of_direct (hm : f.m = false) : fastOrIndirect f s = .ok (fastPlace f s) :=
  (fastOrIndirect_ok_iff ..).2 (.inl ⟨hm, rfl⟩)

theorem fastOrIndirect_of_pointer {w : Word} (hm : f.m = true) (hw : s.Holds (fastPlace f s) w) :
    fastOrIndirect f s = .ok ⟨.main, addr19 w⟩ :=
  (fastOrIndirect_ok_iff ..).2 (.inr ⟨hm, w, hw, rfl⟩)

/-- Where the pointer cannot be read there is no location (R33, R80). -/
theorem fastOrIndirect_of_pointer_error (hm : f.m = true) (h : s.read (fastPlace f s) = .error e) :
    fastOrIndirect f s = .error e := by
  simp [fastOrIndirect, hm, h]

theorem literalOrMain_of_main (hm : f.m = true) : literalOrMain f s = s.read (mainPlace f s) := if_pos hm

theorem mainOnly_of_main (hm : f.m = true) : mainOnly f s = .ok (mainPlace f s) := if_pos hm

/-- 04 to 07 and 14 to 17 have no location with M = 0 (R56). -/
theorem mainOnly_of_noEntry (hm : f.m = false) : mainOnly f s = .error (.refused .noEntryM0) := by
  simp [mainOnly, hm]

theorem operandAt_of_ok {loc : Fields → State → Result Place} {p : Place} (h : loc f s = .ok p) :
    operandAt loc f s = s.read p := by
  simp [operandAt, h]

theorem operandAt_of_error {loc : Fields → State → Result Place} (h : loc f s = .error e) :
    operandAt loc f s = .error e := by
  simp [operandAt, h]

/-- With M = 0 the fast-store word is the operand, with M = 1 it is the pointer: unread, it leaves no operand either way. -/
theorem operandAt_fastOrIndirect_of_error (h : s.read (fastPlace f s) = .error e) :
    operandAt fastOrIndirect f s = .error e := by
  cases hm : f.m with
  | false => exact (operandAt_of_ok (fastOrIndirect_of_direct hm)).trans h
  | true => exact operandAt_of_error (fastOrIndirect_of_pointer_error hm h)

end

/-- Settles O15: each place is made of `addr19`, the residue of a word modulo 2^19. -/
theorem indirectOperandsGoThroughTheFastStore : Obligations.IndirectOperandsGoThroughTheFastStore := by
  intro s f
  simp only [← addr19_eq_mod]
  refine ⟨⟨rfl, rfl, rfl⟩, fun hm => ⟨?_, fastOrIndirect_of_direct hm⟩,
    fun hm => ⟨mainOnly_of_main hm, fun w => ?_, fun w hw => ?_⟩⟩
  · exact (literalOrMain_ok_iff ..).2 (.inl ⟨hm, rfl⟩)
  · rw [literalOrMain_of_main hm]
    exact State.read_ok_iff ..
  · exact fastOrIndirect_of_pointer hm hw

/-! ## Rules without an operand to read -/

section
variable {g : Reg} {flag : Bool → State → State} {op : Int → Int → Int} {operand : Fields → State → Result Word}
  {loc : Fields → State → Result Place} {f : Fields} {s : State} {e : Stop}

/-- A rule that begins by finding a location and reading it stops where the operand there cannot be read. -/
theorem Result.bind_read_of_error {β : Type} (h : operandAt loc f s = .error e) (k : Place → Word → Result β) :
    (loc f s >>= fun p => s.read p >>= k p) = .error e := by
  cases hp : loc f s with
  | error d =>
    cases (operandAt_of_error hp).symm.trans h
    rfl
  | ok p => exact Result.bind_of_error ((operandAt_of_ok hp).symm.trans h) (k p)

theorem toRegister_of_error (h : operand f s = .error e) : toRegister g flag op operand f s = .error e :=
  Result.bind_of_error h _

theorem loadReg_of_error (h : operand f s = .error e) : loadReg g operand f s = .error e := Result.bind_of_error h _

theorem toStore_of_error (h : operandAt loc f s = .error e) : toStore g flag op loc f s = .error e :=
  Result.bind_read_of_error h _

theorem countStore_of_error {k : Int} (h : operandAt loc f s = .error e) : countStore k loc f s = .error e :=
  Result.bind_read_of_error h _

theorem andToStore_of_error (h : operandAt loc f s = .error e) : andToStore loc f s = .error e :=
  Result.bind_read_of_error h _

theorem andToA_of_error (h : operandAt loc f s = .error e) : andToA loc f s = .error e := Result.bind_of_error h _

theorem rootOfSum_of_error (h : operandAt loc f s = .error e) : rootOfSum loc f s = .error e := Result.bind_of_error h _

theorem product_of_error (h : operandAt loc f s = .error e) : product loc f s = .error e := Result.bind_of_error h _

theorem multiplyDouble_of_error (h : operandAt loc f s = .error e) : multiplyDouble loc f s = .error e :=
  Result.bind_of_error (product_of_error h) _

theorem multiplySingle_of_error (h : operandAt loc f s = .error e) : multiplySingle loc f s = .error e :=
  Result.bind_of_error (product_of_error h) _

theorem divideDouble_of_error (h : operandAt loc f s = .error e) : divideDouble loc f s = .error e :=
  Result.bind_of_error h _

theorem divideSingle_of_error (h : operandAt loc f s = .error e) : divideSingle loc f s = .error e :=
  Result.bind_of_error h _

theorem storeReg_of_error (h : loc f s = .error e) : storeReg g loc f s = .error e := Result.bind_of_error h _

/-- A register is not stored at a place out of range (R31). -/
theorem storeReg_of_outside {p : Place} (hp : loc f s = .ok p) (h : s.inRange p = false) :
    storeReg g loc f s = .error (.fault .addressOutOfRange) := by
  rw [storeReg, hp]
  exact State.write_of_outside _ h

end

/-- The operand that the rule of an instruction reads, by the operand class of its function (R52, R62, R80, R108, R118); 0 where
the rule reads none. -/
def operandRead (i : Instr) (s : State) : Result Word :=
  match i with
  | .addB00 f | .subB01 f | .revB02 f | .loadB03 f | .addA10 f | .subA11 f | .revA12 f | .loadA13 f => literalOrMain f s
  | .addBToStore04 f | .subBFromStore05 f | .revBFromStore06 f | .addAToStore14 f | .subAFromStore15 f
  | .revAFromStore16 f => operandAt mainOnly f s
  | .addB20 f | .subB21 f | .revB22 f | .loadB23 f | .addBToStore24 f | .subBFromStore25 f | .revBFromStore26 f
  | .addA30 f | .subA31 f | .revA32 f | .loadA33 f | .addAToStore34 f | .subAFromStore35 f | .revAFromStore36 f =>
    operandAt fastOrIndirect f s
  | .andA52 f | .loadR53 f | .incStore54 f | .decStore55 f | .andStore56 f | .squareRoot63 f | .mulDouble64 f
  | .mulSingle65 f | .divDouble66 f | .divSingle67 f => operandAt direct f s
  | _ => .ok 0

/-- An instruction whose operand cannot be read stops for the read's reason. -/
theorem exec_of_operandRead_error {i : Instr} {s : State} {e : Stop} (h : operandRead i s.advance = .error e) :
    exec i s = e.outcome := by
  cases i with
  | addB00 | subB01 | revB02 | addA10 | subA11 | revA12 | addB20 | subB21 | revB22 | addA30 | subA31 | revA32 =>
    exact obey_of_error (toRegister_of_error h)
  | loadB03 | loadA13 | loadB23 | loadA33 | loadR53 => exact obey_of_error (loadReg_of_error h)
  | addBToStore04 | subBFromStore05 | revBFromStore06 | addAToStore14 | subAFromStore15 | revAFromStore16
  | addBToStore24 | subBFromStore25 | revBFromStore26 | addAToStore34 | subAFromStore35 | revAFromStore36 =>
    exact obey_of_error (toStore_of_error h)
  | andA52 => exact obey_of_error (andToA_of_error h)
  | incStore54 | decStore55 => exact obey_of_error (countStore_of_error h)
  | andStore56 => exact obey_of_error (andToStore_of_error h)
  | squareRoot63 => exact obey_of_error (rootOfSum_of_error h)
  | mulDouble64 => exact obey_of_error (multiplyDouble_of_error h)
  | mulSingle65 => exact obey_of_error (multiplySingle_of_error h)
  | divDouble66 => exact obey_of_error (divideDouble_of_error h)
  | divSingle67 => exact obey_of_error (divideSingle_of_error h)
  | _ => cases h

/-- Settles O16: the instructions of a list read one and the same operand, and it is the one that has no word. -/
theorem operandsWithoutAWordStop : Obligations.OperandsWithoutAWordStop := by
  intro f s e
  simp only [← State.advance_read s]
  refine ⟨fun i hi hm unread => ?_, fun i hi => ?_, fun i hi hm unread => ?_, fun i hi unread => ?_⟩
  · have operand : operandRead i s.advance = s.advance.read (mainPlace f s.advance) := by
      fin_cases hi <;> simp [operandRead, literalOrMain_of_main hm, operandAt_of_ok (mainOnly_of_main hm)]
    exact exec_of_operandRead_error (operand.trans unread)
  · have operand : operandRead i s.advance = operandAt fastOrIndirect f s.advance := by fin_cases hi <;> rfl
    refine ⟨fun unread => ?_, fun p hp unread => ?_⟩
    · exact exec_of_operandRead_error (operand.trans (operandAt_fastOrIndirect_of_error unread))
    · exact exec_of_operandRead_error (operand.trans ((operandAt_of_ok hp).trans unread))
  · have noPlace := fastOrIndirect_of_pointer_error hm unread
    fin_cases hi <;> exact obey_of_error (storeReg_of_error noPlace)
  · have operand : operandRead i s.advance = s.advance.read (directPlace f s.advance) := by fin_cases hi <;> rfl
    exact exec_of_operandRead_error (operand.trans unread)

end Sys2Proof.Machine
end

section
/-!
The functions that leave their result in the store: where 04 to 07 and 14 to 17 have no place (O22), and what 24 to 27 store
(O26).
-/

namespace Sys2Proof.Machine

/-! ## Groups 0 and 1 -/

/-- The functions with no entry for M = 0 store a register, or combine one with a word of the store, at the main-store place
(R56, R62). -/
theorem exec_of_needsM1 {i : Instr} (h : i.needsM1 = true) (s : State) :
    ∃ g, exec i s = obey i.fields s (storeReg g mainOnly i.fields) ∨
      ∃ op, exec i s = obey i.fields s (toStore g State.drawOv op mainOnly i.fields) := by
  cases i with
  | addBToStore04 | subBFromStore05 | revBFromStore06 | addAToStore14 | subAFromStore15 | revAFromStore16 =>
    exact ⟨_, .inr ⟨_, rfl⟩⟩
  | storeB07 | storeA17 => exact ⟨_, .inl rfl⟩
  | _ => cases h

/-- Settles O22: `mainOnly` has no place for M = 0, and no access succeeds at its place when that is out of range. -/
theorem storeFunctionsOfGroups01WithoutAPlaceStop : Obligations.StoreFunctionsOfGroups01WithoutAPlaceStop := by
  intro i s needsM1
  obtain ⟨g, storing | ⟨op, combining⟩⟩ := exec_of_needsM1 needsM1 s
  · rw [storing]
    refine ⟨fun m0 => ?_, fun m1 outside => ?_⟩
    · exact obey_of_error (storeReg_of_error (mainOnly_of_noEntry m0))
    · exact obey_of_error (storeReg_of_outside (mainOnly_of_main m1) (by simpa using outside))
  · rw [combining]
    refine ⟨fun m0 => ?_, fun m1 outside => ?_⟩
    · exact obey_of_error (toStore_of_error (operandAt_of_error (mainOnly_of_noEntry m0)))
    · have unread : s.advance.read (mainPlace i.fields s.advance) = .error (.fault .addressOutOfRange) :=
        State.read_of_outside (by simpa using outside)
      exact obey_of_error (toStore_of_error ((operandAt_of_ok (mainOnly_of_main m1)).trans unread))

/-! ## A result in the store -/

/-- A group's rule for OV: it is independent of LOCK and reaches no store word. -/
structure OvRule (flag : Bool → State → State) : Prop where
  lock : ∀ o u l, ({ flag o u with lock := l } : State) = flag o { u with lock := l }
  peek : ∀ o u q, (flag o u).peek q = u.peek q

theorem OvRule.drawOv : OvRule State.drawOv := ⟨fun o _ _ => by cases o <;> rfl, fun o u q => u.drawOv_peek o q⟩

theorem OvRule.setOv : OvRule State.setOv := ⟨fun _ _ _ => rfl, fun o u q => u.setOv_peek o q⟩

/-- A word stored by an instruction that passes on: S advances before it and LOCK is set after it. -/
theorem State.poke_passed (s : State) (f : Fields) (p : Place) (w : Word) :
    ({ s.advance.poke p w with lock := f.l } : State) = (s.poke p w).passed f := by
  obtain ⟨_ | _, _⟩ := p <;> rfl

theorem State.poke_passed_storedOnly (s : State) (f : Fields) (p : Place) (w : Word) :
    StoredOnly s ((s.poke p w).passed f) p w := by
  have same : ∀ q, ((s.poke p w).passed f).peek q = (s.poke p w).peek q := fun q => State.peek_congr rfl rfl q
  simpa only [StoredOnly, same] using s.poke_storedOnly p w

@[simp] theorem State.advance_get (s : State) (g : Reg) : s.advance.get g = s.get g := by cases g <;> rfl

section
variable {g : Reg} {loc : Fields → State → Result Place} {f : Fields} {s : State} {p : Place}

/-- x4, x5, x6: the location receives the result, and no other store word changes (R62, R80). -/
theorem obey_toStore {flag : Bool → State → State} {op : Int → Int → Int} {v : Word} (hflag : OvRule flag)
    (hp : loc f s.advance = .ok p) (hv : s.Holds p v) :
    obey f s (toStore g flag op loc f) = .next (flag (outOfRange (op (sint (s.get g)) (sint v)))
      ((s.poke p (word (op (sint (s.get g)) (sint v)))).passed f)) ∧
    StoredOnly s (flag (outOfRange (op (sint (s.get g)) (sint v)))
      ((s.poke p (word (op (sint (s.get g)) (sint v)))).passed f)) p (word (op (sint (s.get g)) (sint v))) := by
  constructor
  · have rule := (toStore_ok_iff g flag op loc f s.advance _).2 ⟨p, v, hp, by simpa [State.Holds] using hv, rfl⟩
    rw [obey_of_ok rule, hflag.lock, State.poke_passed, State.advance_get]
  · simpa only [StoredOnly, hflag.peek] using s.poke_passed_storedOnly f p _

/-- x7: the location receives the register, and no other store word changes (R70, R78, R88, R96). -/
theorem obey_storeReg (hp : loc f s.advance = .ok p) (inside : s.inRange p = true) :
    obey f s (storeReg g loc f) = .next ((s.poke p (s.get g)).passed f) ∧
    StoredOnly s ((s.poke p (s.get g)).passed f) p (s.get g) := by
  refine ⟨?_, s.poke_passed_storedOnly f p _⟩
  have rule := (storeReg_ok_iff g loc f s.advance _).2 ⟨p, hp, by simpa using inside, rfl⟩
  rw [obey_of_ok rule, State.poke_passed, State.advance_get]

/-- The fast-store place out of range stops a store to it (M = 0) and through it (M = 1). -/
theorem storeReg_fastOrIndirect_of_outside (h : s.inRange (fastPlace f s) = false) :
    storeReg g fastOrIndirect f s = .error (.fault .addressOutOfRange) := by
  cases hm : f.m with
  | false => exact storeReg_of_outside (fastOrIndirect_of_direct hm) h
  | true => exact storeReg_of_error (fastOrIndirect_of_pointer_error hm (State.read_of_outside h))

end

/-- Settles O26: 24 to 26 are one rule with three operations, and 27 stores B or finds no place. -/
theorem group2ResultsInStore : Obligations.Group2ResultsInStore := by
  intro f s
  refine ⟨fun outside => ?_, fun p hp => ⟨fun v hv => ⟨?_, ?_, ?_⟩, fun inside => ?_, fun outside => ?_⟩⟩
  · exact obey_of_error (storeReg_fastOrIndirect_of_outside (by simpa using outside))
  · exact obey_toStore (g := .b) (op := plus) .drawOv hp hv
  · exact obey_toStore (g := .b) (op := minus) .drawOv hp hv
  · exact obey_toStore (g := .b) (op := reverse) .drawOv hp hv
  · exact obey_storeReg (g := .b) hp inside
  · exact obey_of_error (storeReg_of_outside hp (by simpa using outside))

end Sys2Proof.Machine
end

section
/-!
The instruction word (R46): the place of each field in a word's number, and that encoding and decoding lose no bit of it (O1,
O2), with the sample words (O3).
-/

namespace Sys2Proof

/-! ## The places of the fields -/

theorem fieldL_toNat (w : Word) : (fieldL w).toNat = w.toNat / 2 ^ 19 % 2 := Nat.toNat_testBit _ _

theorem fieldM_toNat (w : Word) : (fieldM w).toNat = w.toNat / 2 ^ 18 % 2 := Nat.toNat_testBit _ _

theorem fieldF_toNat (w : Word) : (fieldF w).toNat = w.toNat / 2 ^ 12 % 2 ^ 6 := by
  rw [fieldF, BitVec.extractLsb'_toNat, Nat.shiftRight_eq_div_pow]

theorem fieldK_toNat (w : Word) : (fieldK w).toNat = w.toNat / 2 ^ 10 % 2 ^ 2 := by
  rw [fieldK, BitVec.extractLsb'_toNat, Nat.shiftRight_eq_div_pow]

theorem fieldN_toNat (w : Word) : (fieldN w).toNat = w.toNat % 2 ^ 10 := by
  rw [fieldN, BitVec.extractLsb'_toNat, Nat.shiftRight_zero]

theorem boolToNat_injective : Function.Injective Bool.toNat := Function.LeftInverse.injective Bool.ofNat_toNat

/-- The first of two bit strings joined stands above the bits of the second. -/
theorem toNat_append_eq_add {m n : Nat} (x : BitVec m) (y : BitVec n) :
    (x ++ y).toNat = x.toNat * 2 ^ n + y.toNat := by
  rw [BitVec.toNat_append, ← Nat.shiftLeft_add_eq_or_of_lt y.isLt, Nat.shiftLeft_eq]

/-- The word of an instruction is the sum of its fields at their places (R46). -/
theorem encode_toNat (i : Instr) :
    (encode i).toNat = i.fields.l.toNat * 2 ^ 19 + i.fields.m.toNat * 2 ^ 18 + i.code.toNat * 2 ^ 12 +
      i.fields.k.bits.toNat * 2 ^ 10 + i.fields.n.toNat := by
  simp only [encode, BitVec.toNat_cast, toNat_append_eq_add, BitVec.toNat_ofBool]
  ring

/-! ## The fields of an encoded instruction -/

section
variable (i : Instr)

/-- The bounds of the fields, by which no field reaches the place of the next (R46). -/
theorem fields_lt : i.fields.l.toNat < 2 ∧ i.fields.m.toNat < 2 ∧ i.code.toNat < 2 ^ 6 ∧
    i.fields.k.bits.toNat < 2 ^ 2 ∧ i.fields.n.toNat < 2 ^ 10 :=
  ⟨Bool.toNat_lt _, Bool.toNat_lt _, i.code.isLt, i.fields.k.bits.isLt, i.fields.n.isLt⟩

theorem fieldL_encode : fieldL (encode i) = i.fields.l := by
  have bounds := fields_lt i
  apply boolToNat_injective
  rw [fieldL_toNat, encode_toNat]
  omega

theorem fieldM_encode : fieldM (encode i) = i.fields.m := by
  have bounds := fields_lt i
  apply boolToNat_injective
  rw [fieldM_toNat, encode_toNat]
  omega

theorem fieldF_encode : fieldF (encode i) = i.code := by
  have bounds := fields_lt i
  apply BitVec.eq_of_toNat_eq
  rw [fieldF_toNat, encode_toNat]
  omega

theorem fieldK_encode : fieldK (encode i) = i.fields.k.bits := by
  have bounds := fields_lt i
  apply BitVec.eq_of_toNat_eq
  rw [fieldK_toNat, encode_toNat]
  omega

theorem fieldN_encode : fieldN (encode i) = i.fields.n := by
  have bounds := fields_lt i
  apply BitVec.eq_of_toNat_eq
  rw [fieldN_toNat, encode_toNat]
  omega

end

/-- Every modifier source has its own value of K (R50). -/
theorem ModSource.ofBits_bits (k : ModSource) : ModSource.ofBits k.bits = k := by cases k <;> rfl

/-- Every value of K is that of a modifier source (R50). -/
theorem ModSource.bits_ofBits : ∀ k : BitVec 2, (ModSource.ofBits k).bits = k := by decide

theorem fieldsOf_encode (i : Instr) : fieldsOf (encode i) = i.fields := by
  rw [fieldsOf, fieldL_encode, fieldM_encode, fieldK_encode, fieldN_encode, ModSource.ofBits_bits]

/-! ## The opcode map -/

open Laws.FunctionCode in
/-- The opcode map and the encoder's function codes agree at every instruction (R54). -/
theorem functionCode_statement (i : Instr) : Statement i :=
  i.casesOn
    addB00 subB01 revB02 loadB03 addBToStore04 subBFromStore05 revBFromStore06 storeB07 addA10 subA11 revA12
    loadA13 addAToStore14 subAFromStore15 revAFromStore16 storeA17 addB20 subB21 revB22 loadB23 addBToStore24
    subBFromStore25 revBFromStore26 storeB27 addA30 subA31 revA32 loadA33 addAToStore34 subAFromStore35
    revAFromStore36 storeA37 jumpIncB40 jumpDecB41 jumpBZero42 subEntry43 jumpAGeZero44 jumpALtZero45 jumpAZero46
    jumpOverflow47 jumpAbs50 jumpRel51 andA52 loadR53 incStore54 decStore55 andStore56 storeR57 shiftLogical60
    shiftArith61 shiftDouble62 squareRoot63 mulDouble64 mulSingle65 divDouble66 divSingle67 inputAdd70 stop71
    stop72 inputRead73 autoControl74 stop75 programBreak76 output77

/-- Each of the 64 function codes is that of some instruction (R54). -/
theorem exists_code_eq (code : BitVec 6) : ∃ i : Instr, i.code = code := by
  have every : ∀ c, (instrOf c ⟨false, false, .unmodified, 0⟩).code = c := by decide
  exact ⟨_, every code⟩

theorem instrOf_code_fields (code : BitVec 6) (f : Fields) : (instrOf code f).code = code ∧ (instrOf code f).fields = f := by
  obtain ⟨i, rfl⟩ := exists_code_eq code
  obtain ⟨-, agree⟩ := functionCode_statement i
  exact agree f

theorem decode_code (w : Word) : (decode w).code = fieldF w := (instrOf_code_fields _ _).1

theorem decode_fields (w : Word) : (decode w).fields = fieldsOf w := (instrOf_code_fields _ _).2

/-- Settles O1: the fields of the encoded word are the instruction's, and the opcode map gives the instruction of its own code
and fields. -/
theorem decodeReadsBackEveryEncodedInstruction : Obligations.DecodeReadsBackEveryEncodedInstruction := by
  intro i
  obtain ⟨own, -⟩ := functionCode_statement i
  rw [decode, fieldF_encode, fieldsOf_encode]
  exact own

/-- Settles O2: the decoded instruction's fields are the word's, and a word's number is the sum of its digits at the fields'
places. -/
theorem wordIsTheSumOfItsFields : Obligations.WordIsTheSumOfItsFields := by
  intro w
  have bound := w.isLt
  simp only [decode_code, decode_fields, fieldsOf, ModSource.bits_ofBits, fieldL_toNat, fieldM_toNat, fieldF_toNat,
    fieldK_toNat, fieldN_toNat]
  omega

/-- Settles O3, by decoding each of the six words. -/
theorem sampleWordsDecodeAsWritten : Obligations.SampleWordsDecodeAsWritten := by
  refine ⟨?_, ?_, ?_, ?_, ?_, ?_⟩ <;> decide

end Sys2Proof
end

section
/-!
The instruction cycle (R60): what LOCK holds after an instruction (O8), the break test and the idling between instructions
(O55, O57), and the instruction a step obeys (O6).
-/

namespace Sys2Proof.Machine

/-! ## LOCK -/

section
variable {i : Instr} {f : Fields} {s t : State}

/-- An instruction that completes by its rule sets LOCK to its L last (R145). -/
theorem obey_lock {rule : State → Result State} (h : obey f s rule = .next t) : t.lock = f.l := by
  obtain ⟨w, -, rfl⟩ := (obey_next_iff ..).1 h
  rfl

theorem dynamicStop_lock (h : dynamicStop f s = .next t) : t.lock = f.l := by
  cases h
  rfl

/-- An input is performed, or held with nothing changed (R130). -/
theorem inputWith_lock {use : Word → State → State} (h : inputWith use f s = .next t) : t.lock = f.l ∨ t = s := by
  obtain ⟨d, -, ⟨-, held⟩ | ⟨w, u, -, rfl⟩⟩ := (inputWith_next_iff ..).1 h
  · exact .inr held
  · exact .inl rfl

/-- An output is performed, or held with nothing changed (R130). -/
theorem outputA_lock (h : outputA f s = .next t) : t.lock = f.l ∨ t = s := by
  obtain ⟨d, -, ⟨-, held⟩ | ⟨u, -, rfl⟩⟩ := (outputA_next_iff ..).1 h
  · exact .inr held
  · exact .inl rfl

end

/-- Settles O8: every function sets LOCK last, but 74, which never completes, and the three that name a device, which may
hold. -/
theorem completedInstructionSetsLockToL : Obligations.CompletedInstructionSetsLockToL := by
  intro i s t h
  cases i with
  | inputAdd70 | inputRead73 => exact (inputWith_lock h).imp_right fun held => ⟨held, rfl⟩
  | output77 => exact (outputA_lock h).imp_right fun held => ⟨held, rfl⟩
  | stop71 | stop72 | stop75 => exact .inl (dynamicStop_lock h)
  | autoControl74 => cases h
  | _ => exact .inl (obey_lock h)

/-! ## The level switch -/

section
variable {s : State} {l : Level}

/-- The break test: LOCK is 0 and the best level is not the current one (R149). -/
theorem State.breakDue_iff : s.breakDue = true ↔ s.lock = false ∧ s.best ≠ some s.cur := by
  simp [State.breakDue]

theorem State.enterBest_of_some (h : s.best = some l) : s.enterBest = s.enterLevel l := by
  rw [State.enterBest, h]

theorem State.enterBest_of_none (h : s.best = none) : s.enterBest = { s with idle := true } := by
  rw [State.enterBest, h]

/-- The re-entry addresses have no part in which level is the best (R148). -/
theorem State.saveReentry_best (s : State) : s.saveReentry.best = s.best := rfl

/-- A break to another level saves S for the current one and enters the other at its own re-entry address (R149). -/
theorem State.programBreak_of_some (h : s.best = some l) (other : l ≠ s.cur) :
    s.programBreak =
      { s with reentry := s.reentry.set s.cur.val s.seq s.cur.isLt, cur := l, seq := s.reentry.get l, idle := false } := by
  have own : s.saveReentry.reentry.get l = s.reentry.get l := by
    rw [State.saveReentry_reentry, vector_get_set, if_neg other]
  rw [State.programBreak, State.enterBest_of_some (s.saveReentry_best.trans h), State.enterLevel, own]
  rfl

/-- A break with no level to enter saves S for the current level and idles (R152). -/
theorem State.programBreak_of_none (h : s.best = none) :
    s.programBreak = { s with reentry := s.reentry.set s.cur.val s.seq s.cur.isLt, idle := true } :=
  State.enterBest_of_none (s.saveReentry_best.trans h)

/-! ## Step 1 of the cycle, after the environment has acted -/

@[simp] theorem State.environment_idle (s : State) : s.environment.idle = s.idle :=
  (congrArg State.idle s.environment_outsideOnly :)

@[simp] theorem State.environment_lock (s : State) : s.environment.lock = s.lock :=
  (congrArg State.lock s.environment_outsideOnly :)

@[simp] theorem State.environment_cur (s : State) : s.environment.cur = s.cur :=
  (congrArg State.cur s.environment_outsideOnly :)

@[simp] theorem State.environment_seq (s : State) : s.environment.seq = s.seq :=
  (congrArg State.seq s.environment_outsideOnly :)

@[simp] theorem State.environment_reentry (s : State) : s.environment.reentry = s.reentry :=
  (congrArg State.reentry s.environment_outsideOnly :)

/-- With LOCK = 0, a best level that is not the current one brings a break (R149). -/
theorem State.boundary_of_break (idle : s.idle = false) (lock : s.lock = false) (h : s.environment.best ≠ some s.cur) :
    s.boundary = s.environment.programBreak := by
  have due : s.environment.breakDue = true := by
    rw [State.breakDue_iff, State.environment_lock, State.environment_cur]
    exact ⟨lock, h⟩
  simp [State.boundary, State.settleLevel, State.environment_idle, idle, due]

/-- A processor that idles enters the best level as soon as there is one, whatever LOCK is (R152). -/
theorem State.boundary_of_idle (idle : s.idle = true) : s.boundary = s.environment.enterBest := by
  simp [State.boundary, State.settleLevel, State.environment_idle, idle]

end

/-- Settles O55: the environment leaves the current level, S and the re-entry addresses as they are, so that the break is from
where the processor was. -/
theorem breakOnAStimulusSwitchesLevel : Obligations.BreakOnAStimulusSwitchesLevel := by
  intro s l idle lock best other
  have away : s.environment.best ≠ some s.cur := by simpa [best] using other
  have otherAfter : l ≠ s.environment.cur := by rwa [State.environment_cur]
  rw [State.boundary_of_break idle lock away, State.programBreak_of_some best otherAfter]
  simp only [State.environment_reentry, State.environment_cur, State.environment_seq]
  rw [← idle, ← State.environment_idle]

/-- A step at whose boundary the processor idles obeys no instruction (R152). -/
theorem step_of_idle {s : State} (h : s.boundary.idle = true) : step s = .next s.boundary :=
  if_pos h

/-- Settles O57: with no level runnable the break, and the idling, end in idling; with one runnable the idling ends there. -/
theorem idlingEndsWithARunnableLevel : Obligations.IdlingEndsWithARunnableLevel := by
  intro s
  refine ⟨fun idle lock best => ?_, fun idle best => ?_, fun l idle best => ?_⟩
  · have away : s.environment.best ≠ some s.cur := by simp [best]
    have saved := (State.boundary_of_break idle lock away).trans (State.programBreak_of_none best)
    rw [step_of_idle (by rw [saved]), saved]
    simp only [State.environment_reentry, State.environment_cur, State.environment_seq]
  · have still : s.boundary = s.environment := by
      rw [State.boundary_of_idle idle, State.enterBest_of_none best, ← idle, ← State.environment_idle]
    rw [step_of_idle (by rw [still, State.environment_idle, idle]), still]
  · rw [State.boundary_of_idle idle, State.enterBest_of_some best, ← s.environment_reentry]
    rfl

/-! ## The instruction obeyed -/

/-- Settles O6: the step fetches at the place the boundary leaves in S, which in the quiet environment is S. -/
theorem stepRunsTheDecodedInstruction : Obligations.StepRunsTheDecodedInstruction :=
  ⟨fun _ _ idle word => step_of_holds idle word, fun _ _ quiet word => quiet.step word⟩

end Sys2Proof.Machine
end

section
/-!
Groups 0 and 1 (R62 to R78): what 00 to 03 and 10 to 13 leave in their register (O18, O19), and what 04 to 07 and 14 to 17
store (O20, O21).
-/

namespace Sys2Proof.Machine

/-! ## A result in a register -/

/-- A register written by an instruction that passes on: S advances before it and LOCK is set after it. -/
theorem State.put_passed (s : State) (f : Fields) (g : Reg) (w : Word) :
    ({ s.advance.put g w with lock := f.l } : State) = (s.passed f).put g w := by
  cases g <;> rfl

section
variable {g : Reg} {operand : Fields → State → Result Word} {f : Fields} {s : State} {v : Word}

/-- x0, x1, x2: the register receives the result, and OV follows the group's rule (R62, R80). -/
theorem obey_toRegister {flag : Bool → State → State} {op : Int → Int → Int} (hflag : OvRule flag)
    (hv : operand f s.advance = .ok v) :
    obey f s (toRegister g flag op operand f) = .next (flag (outOfRange (op (sint (s.get g)) (sint v)))
      ((s.passed f).put g (word (op (sint (s.get g)) (sint v))))) := by
  have rule := (toRegister_ok_iff g flag op operand f s.advance _).2 ⟨v, hv, rfl⟩
  rw [obey_of_ok rule, hflag.lock, State.put_passed, State.advance_get]

/-- x3: the register receives the operand (R66, R74, R84, R92). -/
theorem obey_loadReg (hv : operand f s.advance = .ok v) :
    obey f s (loadReg g operand f) = .next ((s.passed f).put g v) := by
  have rule := (loadReg_ok_iff g operand f s.advance _).2 ⟨v, hv, rfl⟩
  rw [obey_of_ok rule, State.put_passed]

/-- With M = 1 a main-store place out of range leaves no operand, S advanced or not (R31, R62). -/
theorem literalOrMain_of_outside (hm : f.m = true) (h : s.inRange (mainPlace f s.advance) = false) :
    literalOrMain f s.advance = .error (.fault .addressOutOfRange) :=
  (literalOrMain_of_main hm).trans (State.read_of_outside (by simpa using h))

end

/-- Settles O18: 00 to 02 are one rule with three operations, 03 loads B, and all four read the one operand. -/
theorem group0ResultsInB : Obligations.Group0ResultsInB := by
  intro f s
  refine ⟨fun v hv => ⟨?_, ?_, ?_, ?_⟩, fun m1 outside => ?_⟩
  · exact obey_toRegister (g := .b) (op := plus) .drawOv hv
  · exact obey_toRegister (g := .b) (op := minus) .drawOv hv
  · exact obey_toRegister (g := .b) (op := reverse) .drawOv hv
  · exact obey_loadReg (g := .b) hv
  · have unread := literalOrMain_of_outside m1 outside
    exact ⟨obey_of_error (toRegister_of_error unread), obey_of_error (toRegister_of_error unread),
      obey_of_error (toRegister_of_error unread), obey_of_error (loadReg_of_error unread)⟩

/-- Settles O19: the rules of O18 with A for B. -/
theorem group1ResultsInA : Obligations.Group1ResultsInA := by
  intro f s
  refine ⟨fun v hv => ⟨?_, ?_, ?_, ?_⟩, fun m1 outside => ?_⟩
  · exact obey_toRegister (g := .a) (op := plus) .drawOv hv
  · exact obey_toRegister (g := .a) (op := minus) .drawOv hv
  · exact obey_toRegister (g := .a) (op := reverse) .drawOv hv
  · exact obey_loadReg (g := .a) hv
  · have unread := literalOrMain_of_outside m1 outside
    exact ⟨obey_of_error (toRegister_of_error unread), obey_of_error (toRegister_of_error unread),
      obey_of_error (toRegister_of_error unread), obey_of_error (loadReg_of_error unread)⟩

/-! ## A result in the store -/

/-- Settles O20: 04 to 06 are one rule with three operations, and 07 stores B. -/
theorem group0ResultsInStore : Obligations.Group0ResultsInStore := by
  intro f s p hp
  refine ⟨fun v hv => ⟨?_, ?_, ?_⟩, fun inside => ?_⟩
  · exact obey_toStore (g := .b) (op := plus) .drawOv hp hv
  · exact obey_toStore (g := .b) (op := minus) .drawOv hp hv
  · exact obey_toStore (g := .b) (op := reverse) .drawOv hp hv
  · exact obey_storeReg (g := .b) hp inside

/-- Settles O21: the rules of O20 with A for B. -/
theorem group1ResultsInStore : Obligations.Group1ResultsInStore := by
  intro f s p hp
  refine ⟨fun v hv => ⟨?_, ?_, ?_⟩, fun inside => ?_⟩
  · exact obey_toStore (g := .a) (op := plus) .drawOv hp hv
  · exact obey_toStore (g := .a) (op := minus) .drawOv hp hv
  · exact obey_toStore (g := .a) (op := reverse) .drawOv hp hv
  · exact obey_storeReg (g := .a) hp inside

end Sys2Proof.Machine
end

section
/-!
Groups 2 and 3 (R80 to R96): what 20 to 23 leave in B (O23), what 30 to 32 leave in A (O24), the moves of 33 and 37 (O25), and
what 34 to 36 store (O27).
-/

namespace Sys2Proof.Machine

/-! ## The operand at a place -/

section
variable {loc : Fields → State → Result Place} {f : Fields} {s : State} {p : Place}

/-- The operand is the word the location holds, S advanced or not. -/
theorem operandAt_of_holds {v : Word} (hp : loc f s.advance = .ok p) (hv : s.Holds p v) :
    operandAt loc f s.advance = .ok v :=
  (operandAt_of_ok hp).trans ((State.read_ok_iff ..).2 (by simpa [State.Holds] using hv))

/-- A location out of range holds no operand (R31). -/
theorem operandAt_of_outside (hp : loc f s = .ok p) (h : s.inRange p = false) :
    operandAt loc f s = .error (.fault .addressOutOfRange) :=
  (operandAt_of_ok hp).trans (State.read_of_outside h)

/-- The fast-store place out of range leaves no operand at it (M = 0) and none through it (M = 1). -/
theorem operandAt_fastOrIndirect_of_outside (h : s.inRange (fastPlace f s) = false) :
    operandAt fastOrIndirect f s = .error (.fault .addressOutOfRange) :=
  operandAt_fastOrIndirect_of_error (State.read_of_outside h)

end

/-! ## A result in a register -/

/-- Settles O23: 20 to 22 are one rule with three operations, and 23 loads B. -/
theorem group2ResultsInB : Obligations.Group2ResultsInB := by
  intro f s p v hp hv
  have operand := operandAt_of_holds hp hv
  refine ⟨?_, ?_, ?_, ?_⟩
  · exact obey_toRegister (g := .b) (op := plus) .drawOv operand
  · exact obey_toRegister (g := .b) (op := minus) .drawOv operand
  · exact obey_toRegister (g := .b) (op := reverse) .drawOv operand
  · exact obey_loadReg (g := .b) operand

/-- Settles O24: the rule of O23 with A for B, and OV set where Group 2 draws it. -/
theorem group3ResultsInASetOv : Obligations.Group3ResultsInASetOv := by
  intro f s p v hp hv
  have operand := operandAt_of_holds hp hv
  refine ⟨?_, ?_, ?_⟩
  · exact obey_toRegister (g := .a) (op := plus) .setOv operand
  · exact obey_toRegister (g := .a) (op := minus) .setOv operand
  · exact obey_toRegister (g := .a) (op := reverse) .setOv operand

/-! ## A result in the store -/

/-- Settles O27: 34 to 36 are one rule with three operations. -/
theorem group3ResultsInStoreSetOv : Obligations.Group3ResultsInStoreSetOv := by
  intro f s p v hp hv
  refine ⟨?_, ?_, ?_⟩
  · exact obey_toStore (g := .a) (op := plus) .setOv hp hv
  · exact obey_toStore (g := .a) (op := minus) .setOv hp hv
  · exact obey_toStore (g := .a) (op := reverse) .setOv hp hv

/-! ## The moves of A -/

theorem decode_of_fieldF {w : Word} {code : BitVec 6} (h : fieldF w = code) : decode w = instrOf code (fieldsOf w) :=
  congrArg (instrOf · (fieldsOf w)) h

/-- Settles O25: 33 loads A and 37 stores it at one and the same location, and neither finds that location, or a way to it, out
of range. -/
theorem functions33And37MoveAWord : Obligations.Functions33And37MoveAWord := by
  intro f s
  refine ⟨fun p hp => ⟨fun v hv => ?_, fun inside => ?_, fun outside => ⟨?_, ?_⟩⟩, fun outside => ⟨?_, ?_⟩, fun w => ⟨?_, ?_⟩⟩
  · exact obey_loadReg (g := .a) (operandAt_of_holds hp hv)
  · exact obey_storeReg (g := .a) hp inside
  · exact obey_of_error (loadReg_of_error (operandAt_of_outside hp (by simpa using outside)))
  · exact obey_of_error (storeReg_of_outside hp (by simpa using outside))
  · exact obey_of_error (loadReg_of_error (operandAt_fastOrIndirect_of_outside (by simpa using outside)))
  · exact obey_of_error (storeReg_fastOrIndirect_of_outside (by simpa using outside))
  · exact decode_of_fieldF
  · exact decode_of_fieldF

end Sys2Proof.Machine
end

section
/-!
Group 4 (R97 to R106): the jumps that count B (40 and 41, O29), the jumps on a condition (42, 44, 45 and 46, O31, O32), and the
jump on overflow (47, O33). Each rule has three cases: the jump taken, the jump not taken, and the target out of range.
-/

namespace Sys2Proof.Machine

/-! ## The target out of range -/

section
variable {f : Fields} {s : State}

/-- The range check of a jump that is taken is that of its target (R97). -/
theorem jumpIf_of_outside {taken : State → Bool} (h : taken s = true) (outside : s.inRange (directPlace f s) = false) :
    jumpIf taken f s = .error (.fault .addressOutOfRange) :=
  (if_pos h).trans (State.jump_of_outside outside)

/-- A target out of range leaves the count unmade (R97, R99). -/
theorem countAndJump_of_outside {k : Int} (h : s.b ≠ 0) (outside : s.inRange (directPlace f s) = false) :
    countAndJump k f s = .error (.fault .addressOutOfRange) :=
  (if_neg h).trans (Result.bind_of_error (State.jump_of_outside outside) _)

/-- A target out of range leaves OV set (R97, R106). -/
theorem jumpOnOverflow_of_outside (h : s.ov = true) (outside : s.inRange (directPlace f s) = false) :
    jumpOnOverflow f s = .error (.fault .addressOutOfRange) :=
  (if_pos h).trans (Result.bind_of_error (State.jump_of_outside outside) _)

/-! ## The three cases of the shared rules -/

/-- A jump whose condition holds goes to its target and changes nothing else (R97). -/
theorem obey_jumpIf_of_taken {taken : State → Bool} (h : taken s.advance = true)
    (inside : s.inRange (directPlace f s.advance) = true) :
    obey f s (jumpIf taken f) = .next (s.jumped f (directPlace f s.advance)) :=
  obey_of_ok ((jumpIf_ok_iff ..).2 (.inl ⟨h, by simpa using inside, rfl⟩))

/-- A jump whose condition fails leaves S at the next instruction (R98). -/
theorem obey_jumpIf_of_not_taken {taken : State → Bool} (h : taken s.advance = false) :
    obey f s (jumpIf taken f) = .next (s.passed f) :=
  obey_of_ok ((jumpIf_ok_iff ..).2 (.inr ⟨h, rfl⟩))

/-- A jump whose condition holds stops at a target out of range (R97). -/
theorem obey_jumpIf_of_outside {taken : State → Bool} (h : taken s.advance = true)
    (outside : s.inRange (directPlace f s.advance) = false) :
    obey f s (jumpIf taken f) = .fault .addressOutOfRange :=
  obey_of_error (jumpIf_of_outside h (by simpa using outside))

/-- A count and its jump are made together, the target being formed from the old B (R99, R100). -/
theorem obey_countAndJump_of_nonzero {k : Int} (h : s.b ≠ 0) (inside : s.inRange (directPlace f s.advance) = true) :
    obey f s (countAndJump k f) = .next
      (({ s.jumped f (directPlace f s.advance) with b := word (sint s.b + k) } : State).drawOv
        (outOfRange (sint s.b + k))) := by
  have rule := (countAndJump_ok_iff k f s.advance _).2 (.inl ⟨h, by simpa using inside, rfl⟩)
  rw [obey_of_ok rule, OvRule.drawOv.lock]
  rfl

/-- With B = 0 nothing is counted and no jump is taken (R98 to R100). -/
theorem obey_countAndJump_of_zero {k : Int} (h : s.b = 0) : obey f s (countAndJump k f) = .next (s.passed f) :=
  obey_of_ok ((countAndJump_ok_iff ..).2 (.inr ⟨h, rfl⟩))

/-- With B not 0 a target out of range stops the count too (R97, R99). -/
theorem obey_countAndJump_of_outside {k : Int} (h : s.b ≠ 0) (outside : s.inRange (directPlace f s.advance) = false) :
    obey f s (countAndJump k f) = .fault .addressOutOfRange :=
  obey_of_error (countAndJump_of_outside h (by simpa using outside))

end

/-! ## The conditions on A -/

/-- A word is negative exactly when its bit 19 is set (R104). -/
theorem sint_neg_eq_bit19 (w : Word) : decide (sint w < 0) = w.getLsbD 19 := BitVec.msb_eq_toInt.symm

/-- By the spec's reading, 44's condition is the opposite of 45's (R103, COND44). -/
theorem condition44_eq_not_bit19 (w : Word) : condition44 w = !w.getLsbD 19 := by
  have reading : condition44 w = decide (0 ≤ sint w) := rfl
  rw [reading, ← sint_neg_eq_bit19, ← decide_not, decide_eq_decide, not_lt]

/-! ## The instructions -/

/-- Settles O29: 40 and 41 are one rule with the units 1 and -1. -/
theorem countingJumpsCountAndJumpTogether : Obligations.CountingJumpsCountAndJumpTogether := by
  intro f s
  refine ⟨fun nonzero inside => ⟨?_, ?_⟩, fun zero => ⟨?_, ?_⟩, fun nonzero outside => ⟨?_, ?_⟩⟩
  · exact obey_countAndJump_of_nonzero nonzero inside
  · rw [Int.sub_eq_add_neg]
    exact obey_countAndJump_of_nonzero nonzero inside
  · exact obey_countAndJump_of_zero zero
  · exact obey_countAndJump_of_zero zero
  · exact obey_countAndJump_of_outside nonzero outside
  · exact obey_countAndJump_of_outside nonzero outside

/-- Settles O31: the condition that COND44 decides is A[19] = 0. -/
theorem function44JumpsOnNonNegativeA : Obligations.Function44JumpsOnNonNegativeA := by
  intro f s
  have condition : condition44 s.advance.a = !s.a.getLsbD 19 := condition44_eq_not_bit19 s.a
  refine ⟨fun clear inside => ?_, fun set => ?_, fun clear outside => ?_⟩
  · exact obey_jumpIf_of_taken (by rw [condition, clear]; rfl) inside
  · exact obey_jumpIf_of_not_taken (by rw [condition, set]; rfl)
  · exact obey_jumpIf_of_outside (by rw [condition, clear]; rfl) outside

/-- Settles O32: 42, 45 and 46 are the rule of the conditional jump with three conditions, of which 45's is A[19] = 1. -/
theorem functions42And45And46JumpOnTheirConditions : Obligations.Functions42And45And46JumpOnTheirConditions := by
  intro f s
  have negative : decide (sint s.advance.a < 0) = s.a.getLsbD 19 := sint_neg_eq_bit19 s.a
  refine ⟨fun inside => ⟨fun bZero => ?_, fun aNeg => ?_, fun aZero => ?_⟩, fun bNonzero => ?_, fun aNonneg => ?_,
    fun aNonzero => ?_, fun outside => ⟨fun bZero => ?_, fun aNeg => ?_, fun aZero => ?_⟩, fun w => ⟨?_, ?_, ?_⟩⟩
  · exact obey_jumpIf_of_taken (decide_eq_true bZero) inside
  · exact obey_jumpIf_of_taken (negative.trans aNeg) inside
  · exact obey_jumpIf_of_taken (decide_eq_true aZero) inside
  · exact obey_jumpIf_of_not_taken (decide_eq_false bNonzero)
  · exact obey_jumpIf_of_not_taken (negative.trans aNonneg)
  · exact obey_jumpIf_of_not_taken (decide_eq_false aNonzero)
  · exact obey_jumpIf_of_outside (decide_eq_true bZero) outside
  · exact obey_jumpIf_of_outside (negative.trans aNeg) outside
  · exact obey_jumpIf_of_outside (decide_eq_true aZero) outside
  · exact decode_of_fieldF
  · exact decode_of_fieldF
  · exact decode_of_fieldF

/-- Settles O33: OV is the condition, and the jump is checked before OV is cleared. -/
theorem function47ClearsOvAndJumps : Obligations.Function47ClearsOvAndJumps := by
  intro f s
  refine ⟨fun set inside => ?_, fun clear => ?_, fun set outside => ?_⟩
  · exact obey_of_ok ((jumpOnOverflow_ok_iff ..).2 (.inl ⟨set, by simpa using inside, rfl⟩))
  · exact obey_of_ok ((jumpOnOverflow_ok_iff ..).2 (.inr ⟨clear, rfl⟩))
  · exact obey_of_error (jumpOnOverflow_of_outside set (by simpa using outside))

end Sys2Proof.Machine
end

section
/-!
Group 5 (R107 to R116): the jumps 50 and 51 (O35) and the endless loop that a 51 can be (O36), the registers that 52 and 53 fill
(O37), and the store words that 54 to 57 write (O38, O39).
-/

namespace Sys2Proof.Machine

/-! ## The jumps -/

section
variable {f : Fields} {s : State} {p : Place}

/-- A jump to a target in range goes there and changes nothing else (R109, R110). -/
theorem obey_jumpTo {target : Fields → State → Result Place} (hp : target f s.advance = .ok p) (inside : s.inRange p = true) :
    obey f s (jumpTo target f) = .next (s.jumped f p) :=
  obey_of_ok ((jumpTo_ok_iff ..).2 ⟨p, hp, by simpa using inside, rfl⟩)

/-- A jump stops at a target out of range (R97, R107). -/
theorem obey_jumpTo_of_outside {target : Fields → State → Result Place} (hp : target f s.advance = .ok p)
    (outside : s.inRange p = false) : obey f s (jumpTo target f) = .fault .addressOutOfRange := by
  have stops : jumpTo target f s.advance = .error (.fault .addressOutOfRange) := by
    rw [jumpTo, hp]
    exact State.jump_of_outside (by simpa using outside)
  exact obey_of_error stops

/-- By the spec's direct reading, 50 goes to the place that M and the modified N name (R109, JUMP5X). -/
theorem target50_eq (f : Fields) (s : State) : target50 f s = .ok (directPlace f s) := rfl

/-- By the spec's direct reading, 51 goes to the one place of M's store, below 2^19, that is the modified N back from the next
instruction modulo 2^19 (R110, JUMP5X). -/
theorem target51_advance {t : Nat} (low : t < 2 ^ 19)
    (back : ((s.seq.addr + 1 : Int) - (s.advance.modifiedN f).toNat - t) % 2 ^ 19 = 0) :
    target51 f s.advance = .ok ⟨storeOf f.m, t⟩ := by
  have residue : ((s.seq.addr + 1 : Int) - (s.advance.modifiedN f).toNat) % 2 ^ 19 = t := by omega
  have place : backFrom f s.advance (s.advance.modifiedN f) = ⟨storeOf f.m, t⟩ := by
    rw [backFrom, State.advance_seq, nextPlace, Nat.cast_succ, residue, Int.toNat_natCast]
  exact congrArg Except.ok place

end

/-- Settles O35: 50 and 51 are one rule with two targets, each of which is known before the range check. -/
theorem unconditionalJumpsGoWhereTheyName : Obligations.UnconditionalJumpsGoWhereTheyName := by
  intro f s
  refine ⟨fun inside => ?_, fun outside => ?_, fun t low back => ⟨fun inside => ?_, fun outside => ?_⟩⟩
  · exact exec_jumpAbs50_of_inRange inside
  · exact obey_jumpTo_of_outside (target50_eq ..) outside
  · exact obey_jumpTo (target51_advance low back) inside
  · exact obey_jumpTo_of_outside (target51_advance low back) outside

/-! ## The endless loop -/

theorem run_succ_of_step {M : Host.Core} {s t : M.State} (h : M.step s = .next t) (k : Nat) :
    M.run (k + 1) s = M.run k t := by
  simp [Host.Core.run, h]

/-- A state that a step leaves as it is, every number of steps leaves as it is. -/
theorem run_of_step_self {M : Host.Core} {t : M.State} (h : M.step t = .next t) (k : Nat) : M.run k t = .next t := by
  induction k with
  | zero => rfl
  | succ k ih => exact (run_succ_of_step h k).trans ih

/-- A 51 with N = 1 and K = 0 that names its own store goes back to itself: the next instruction is one place further on
(R110). -/
theorem exec_jumpRel51_self {s : State} {f : Fields} (low : s.seq.addr < 2 ^ 19) (inside : s.inRange s.seq = true)
    (hk : f.k = .unmodified) (hn : f.n = 1) (own : storeOf f.m = s.seq.store) :
    exec (.jumpRel51 f) s = .next { s with lock := f.l } := by
  have one : (s.advance.modifiedN f).toNat = 1 := by
    obtain ⟨unmodified, -⟩ := modificationAddsTheSelectedRegister s.advance f
    rw [unmodified hk, hn]
    rfl
  have here : target51 f s.advance = .ok s.seq := by
    have back := target51_advance (f := f) low (by rw [one]; simp)
    rwa [own] at back
  exact obey_jumpTo here inside

/-- Settles O36: the first step sets LOCK, which no level depends on while the current one is the best, and every later step
repeats it. -/
theorem selfJumpRunsForEver : Obligations.SelfJumpRunsForEver := by
  intro s f k noEvent notIdle best low holds hk hn own
  have loops : ∀ lock, Sys2Proof.core.step { s with lock := lock } = .next { s with lock := f.l } := by
    intro lock
    have quiet : State.Quiet { s with lock := lock } := ⟨noEvent, notIdle, State.breakDue_of_best best⟩
    have obeyed := quiet.step holds
    rw [decodeReadsBackEveryEncodedInstruction] at obeyed
    obtain ⟨inside, -⟩ := holds
    exact obeyed.trans (exec_jumpRel51_self (s := { s with lock := lock }) low inside hk hn own)
  exact (run_succ_of_step (loops s.lock) k).trans (run_of_step_self (loops f.l) k)

/-! ## The functions with a word of the store -/

/-- The location of 52 to 57 is the place that M and the modified N name (R108). -/
theorem direct_eq (f : Fields) (s : State) : direct f s = .ok (directPlace f s) := rfl

section
variable {loc : Fields → State → Result Place} {f : Fields} {s : State} {p : Place} {v : Word}

/-- 52: A receives its AND with the operand (R111). -/
theorem obey_andToA (hv : operandAt loc f s.advance = .ok v) :
    obey f s (andToA loc f) = .next { s.passed f with a := s.a &&& v } :=
  obey_of_ok ((andToA_ok_iff ..).2 ⟨v, hv, rfl⟩)

/-- Counting a word is the rule of x4 with an operation that takes nothing from the register. -/
theorem countStore_eq_toStore (k : Int) (loc : Fields → State → Result Place) (g : Reg) :
    countStore k loc = toStore g State.drawOv (fun _ x => x + k) loc := rfl

/-- 54, 55: the word is counted, OV is drawn, and no other store word changes (R113, R114). -/
theorem obey_countStore (k : Int) (hp : loc f s.advance = .ok p) (hv : s.Holds p v) :
    obey f s (countStore k loc f) =
      .next (((s.poke p (word (sint v + k))).passed f).drawOv (outOfRange (sint v + k))) ∧
    StoredOnly s (((s.poke p (word (sint v + k))).passed f).drawOv (outOfRange (sint v + k))) p (word (sint v + k)) := by
  rw [countStore_eq_toStore k loc .a]
  exact obey_toStore .drawOv hp hv

/-- 56: the word receives its AND with A, and no other store word changes (R115). -/
theorem obey_andToStore (hp : loc f s.advance = .ok p) (hv : s.Holds p v) :
    obey f s (andToStore loc f) = .next ((s.poke p (s.a &&& v)).passed f) ∧
    StoredOnly s ((s.poke p (s.a &&& v)).passed f) p (s.a &&& v) := by
  refine ⟨?_, s.poke_passed_storedOnly f p _⟩
  have rule := (andToStore_ok_iff loc f s.advance _).2 ⟨p, v, hp, by simpa [State.Holds] using hv, rfl⟩
  rw [obey_of_ok rule, State.poke_passed, State.advance_a]

end

/-- Settles O37: 52 and 53 read the one word at the place named. -/
theorem functions52And53FillARegister : Obligations.Functions52And53FillARegister := by
  intro f s
  refine ⟨fun v hv => ⟨?_, fun n _ => ?_, ?_⟩, fun outside => ⟨?_, ?_⟩, fun w => ⟨?_, ?_⟩⟩
  · exact obey_andToA (operandAt_of_holds (direct_eq ..) hv)
  · exact BitVec.getLsbD_and
  · exact obey_loadReg (g := .r) (operandAt_of_holds (direct_eq ..) hv)
  · exact obey_of_error (andToA_of_error (operandAt_of_outside (direct_eq ..) (by simpa using outside)))
  · exact obey_of_error (loadReg_of_error (operandAt_of_outside (direct_eq ..) (by simpa using outside)))
  · exact decode_of_fieldF
  · exact decode_of_fieldF

/-- Settles O38: 54 and 55 are one rule with the units 1 and -1. -/
theorem countingAStoreWord : Obligations.CountingAStoreWord := by
  intro f s v hv
  refine ⟨obey_countStore 1 (direct_eq ..) hv, ?_⟩
  rw [Int.sub_eq_add_neg]
  exact obey_countStore (-1) (direct_eq ..) hv

/-- Settles O39: 56 combines A with the word at the place where 57 stores R, and neither finds that place out of range. -/
theorem functions56And57WriteTheStore : Obligations.Functions56And57WriteTheStore := by
  intro f s
  refine ⟨fun v hv => ?_, fun inside => ?_, fun outside => ⟨?_, ?_⟩, fun w => ⟨?_, ?_⟩⟩
  · exact obey_andToStore (direct_eq ..) hv
  · exact obey_storeReg (g := .r) (direct_eq ..) inside
  · exact obey_of_error (andToStore_of_error (operandAt_of_outside (direct_eq ..) (by simpa using outside)))
  · exact obey_of_error (storeReg_of_outside (direct_eq ..) (by simpa using outside))
  · exact decode_of_fieldF
  · exact decode_of_fieldF

end Sys2Proof.Machine
end

section
/-!
Group 6 (R117 to R127): the shifts of A (60 and 61, O40, O41), the square root (63, O43), the single-length product (65, O45), and
the divisions (66 and 67, O46, O47).
-/

namespace Sys2Proof.Machine

/-! ## Numbers that are words -/

/-- A number in the range of a word is read back from its word. -/
theorem sint_word {t : Int} (lo : -2 ^ 19 ≤ t) (hi : t < 2 ^ 19) : sint (word t) = t :=
  BitVec.toInt_ofInt_eq_self (by decide) lo hi

theorem word_sint (x : Word) : word (sint x) = x := BitVec.ofInt_toInt

theorem outOfRange_eq_false_iff (t : Int) : outOfRange t = false ↔ -2 ^ 19 ≤ t ∧ t < 2 ^ 19 := by
  simp only [outOfRange, Bool.or_eq_false_iff, decide_eq_false_iff_not]
  omega

/-- The numbers in range are those that some word stands for. -/
theorem outOfRange_sint (x : Word) : outOfRange (sint x) = false :=
  (outOfRange_eq_false_iff _).2 ⟨BitVec.le_toInt x, BitVec.toInt_lt⟩

theorem outOfRange_of_no_word {t : Int} (h : ∀ x : Word, sint x ≠ t) : outOfRange t = true := by
  by_contra fits
  obtain ⟨lo, hi⟩ := (outOfRange_eq_false_iff t).1 (Bool.eq_false_of_not_eq_true fits)
  exact h (word t) (sint_word lo hi)

/-! ## The shifts of A -/

/-- The low 20 bits of a word times 2^c are the word moved left by c places (R120). -/
theorem word_mul_two_pow (x : Word) (c : Nat) : word ((uint x : Int) * 2 ^ c) = x <<< c := by
  have cast : (uint x : Int) * 2 ^ c = (x.toNat * 2 ^ c : Nat) := by simp
  refine BitVec.eq_of_toNat_eq ?_
  rw [cast, word, BitVec.ofInt_natCast, BitVec.toNat_ofNat, BitVec.toNat_shiftLeft, Nat.shiftLeft_eq]

section
variable {f : Fields} {s : State}

theorem shiftA_of_small (h : (s.modifiedN f).toNat < 1024) :
    shiftA f s = .ok { s with a := s.a <<< (s.modifiedN f).toNat } :=
  (shiftA_ok_iff ..).2 ⟨_, shiftCount_of_small h, by rw [word_mul_two_pow]⟩

theorem shiftA_of_large (h : 1024 ≤ (s.modifiedN f).toNat) : shiftA f s = .error (.refused .shiftCountTooLarge) :=
  Result.bind_of_error (shiftCount_of_large h) _

/-- A product that a word stands for is what A receives (R121). -/
theorem shiftAArith_of_word {x : Word} (hc : (s.modifiedN f).toNat < 1024)
    (hx : sint x = sint s.a * 2 ^ (s.modifiedN f).toNat) : shiftAArith f s = .ok { s with a := x } :=
  (shiftAArith_ok_iff ..).2 ⟨_, shiftCount_of_small hc, hx ▸ outOfRange_sint x, by rw [← hx, word_sint]⟩

theorem shiftAArith_of_overflow (hc : (s.modifiedN f).toNat < 1024)
    (h : outOfRange (sint s.a * 2 ^ (s.modifiedN f).toNat) = true) :
    shiftAArith f s = .error (.refused .arithShiftOverflow) := by
  rw [shiftAArith, shiftCount_of_small hc]
  exact if_pos h

theorem shiftAArith_of_large (h : 1024 ≤ (s.modifiedN f).toNat) :
    shiftAArith f s = .error (.refused .shiftCountTooLarge) :=
  Result.bind_of_error (shiftCount_of_large h) _

end

/-- Settles O40: cutting A times 2^c to a word is moving the bits of A. -/
theorem logicalShiftMovesTheBitsOfA : Obligations.LogicalShiftMovesTheBitsOfA := by
  intro f s
  refine ⟨fun small => ⟨?_, fun allLost => ?_⟩, fun large => ?_⟩
  · exact obey_of_ok (shiftA_of_small small)
  · exact BitVec.shiftLeft_eq_zero allLost
  · exact obey_of_error (shiftA_of_large large)

/-- Settles O41: the range test of the rule asks whether a word stands for the product. -/
theorem arithmeticalShiftMultipliesA : Obligations.ArithmeticalShiftMultipliesA := by
  intro f s
  refine ⟨fun x small product => ?_, fun small noWord => ?_, fun large => ?_⟩
  · exact obey_of_ok (shiftAArith_of_word small product)
  · exact obey_of_error (shiftAArith_of_overflow small (outOfRange_of_no_word noWord))
  · exact obey_of_error (shiftAArith_of_large large)

/-! ## The square root -/

section
variable {x : Int} (lo : 0 ≤ x) (hi : x ≤ 2 ^ 19 - 1)
include lo hi

/-- The integer root of a number of the domain is a word with bit 19 clear (R123). -/
theorem sint_word_floorSqrt : sint (word (floorSqrt (x.toNat * 2 ^ 19))) = floorSqrt (x.toNat * 2 ^ 19) := by
  have fits : floorSqrt (x.toNat * 2 ^ 19) < 2 ^ 19 := floorSqrt_lt _ (by omega)
  exact sint_word (by omega) (by omega)

/-- The root by digits is the floor of the root of a number of the domain times 2^19 (R123, SQRT_ROUND). -/
theorem floorSqrt_bounds :
    (floorSqrt (x.toNat * 2 ^ 19) : Int) * floorSqrt (x.toNat * 2 ^ 19) ≤ x * 2 ^ 19 ∧
      x * 2 ^ 19 < (floorSqrt (x.toNat * 2 ^ 19) + 1 : Int) * (floorSqrt (x.toNat * 2 ^ 19) + 1) := by
  obtain ⟨below, above⟩ := floorSqrt_spec (x.toNat * 2 ^ 19) (by omega)
  have radicand : x * 2 ^ 19 = (x.toNat * 2 ^ 19 : Nat) := by omega
  rw [radicand]
  exact ⟨by exact_mod_cast below, by exact_mod_cast above⟩

end

theorem rootOfSum_outside_domain {loc : Fields → State → Result Place} {f : Fields} {s : State} {m : Word}
    (hm : operandAt loc f s = .ok m) (h : sint s.a + sint m < 0 ∨ 2 ^ 19 - 1 < sint s.a + sint m) :
    rootOfSum loc f s = .error (.refused .sqrtDomain) := by
  rw [rootOfSum, hm]
  exact if_pos h

/-- Settles O43: the root by digits is the floor of the root, which the domain keeps within a word. -/
theorem squareRootIsTheFloorOfTheRoot : Obligations.SquareRootIsTheFloorOfTheRoot := by
  intro f s m hm
  have operand := operandAt_direct hm
  refine ⟨fun lo hi => ?_, fun outside => ?_⟩
  · have root := sint_word_floorSqrt lo hi
    obtain ⟨below, above⟩ := floorSqrt_bounds lo hi
    rw [← root] at below above
    have nonneg := root.symm ▸ Int.natCast_nonneg _
    exact ⟨_, nonneg, below, above, obey_of_ok ((rootOfSum_ok_iff ..).2 ⟨m, operand, lo, hi, rfl⟩)⟩
  · exact obey_of_error (rootOfSum_outside_domain operand outside)

/-! ## The single-length product -/

/-- By the spec's truncation, the single-length part of a product is its more significant half (R125, MUL65_ROUND). -/
theorem singleLength_eq (v : Int) : singleLength v = v / 2 ^ 19 := rfl

/-- The more significant half of a double-length number is a word, and is its floor in units of 2^19. -/
theorem sint_word_singleLength {v : Int} (h : fitsDouble v = true) :
    sint (word (singleLength v)) * 2 ^ 19 ≤ v ∧ v < (sint (word (singleLength v)) + 1) * 2 ^ 19 := by
  obtain ⟨lo, hi⟩ := (fitsDouble_iff v).1 h
  rw [singleLength_eq, sint_word (by omega) (by omega)]
  omega

theorem multiplySingle_overflow {loc : Fields → State → Result Place} {f : Fields} {s : State} {m : Word}
    (hm : operandAt loc f s = .ok m) (h : sint s.a * sint m = 2 ^ 38) :
    multiplySingle loc f s = .error (.refused .multiplyOverflow) :=
  Result.bind_of_error (product_overflow hm h) _

/-- Settles O45: the product is the one of O44, of which A keeps the upper half. -/
theorem singleMultiplyTruncatesAndClearsR : Obligations.SingleMultiplyTruncatesAndClearsR := by
  intro f s m hm
  have operand := operandAt_direct hm
  refine ⟨fun fits => ?_, fun overflow => ?_⟩
  · obtain ⟨below, above⟩ := sint_word_singleLength (fitsDouble_product fits)
    refine ⟨_, below, above, ?_⟩
    exact obey_of_ok ((multiplySingle_ok_iff ..).2 ⟨_, (product_ok_iff ..).2 ⟨m, operand, fits, rfl⟩, rfl⟩)
  · exact obey_of_error (multiplySingle_overflow operand overflow)

/-! ## Division: the quotient that 66 and 67 share -/

/-- Two parts that stop together stop a longer sequence that begins with them. -/
theorem Result.bind_bind_of_error {α β γ : Type} {x : Result α} {y : α → Result β} {e : Stop} (h : (x >>= y) = .error e)
    (k : α → β → Result γ) : (x >>= fun v => y v >>= k v) = .error e := by
  cases x with
  | error _ =>
    cases h
    rfl
  | ok v => exact Result.bind_of_error h (k v)

/-- The quotient of {A,R} by a divisor, or the reason there is none (R118, R126). -/
def quotientBy (d : Word) (s : State) : Result Int := do
  let v ← doubleLength s.a s.r
  divide v (sint d) s

/-- With {A,R} well formed the quotient is that of the number it stands for. -/
theorem quotientBy_of_clear {s : State} (d : Word) (hr : s.r.getLsbD 19 = false) :
    quotientBy d s = divide (doubleOf s.a s.r) (sint d) s := by
  rw [quotientBy, doubleLength_of_clear _ hr]
  rfl

theorem quotientBy_of_malformed {s : State} (d : Word) (hr : s.r.getLsbD 19 = true) :
    quotientBy d s = .error (.refused .doubleLengthMalformed) :=
  Result.bind_of_error (doubleLength_of_set _ hr) _

theorem divide_of_zero {d : Int} (v : Int) (s : State) (h : d = 0) : divide v d s = .error (.refused .divideByZero) :=
  if_pos h

theorem divide_of_overflow {v d : Int} (s : State) (hd : d ≠ 0) (h : |d| * 2 ^ 19 ≤ |v|) :
    divide v d s = .error (.refused .quotientOverflow) :=
  (if_neg hd).trans (if_pos h)

section
variable {loc : Fields → State → Result Place} {f : Fields} {s : State} {d : Word}

/-- A rule that begins with an operand and the quotient by it stops where there is no quotient. -/
theorem Result.bind_quotientBy_of_error {e : Stop} (hd : operandAt loc f s = .ok d) (h : quotientBy d s = .error e)
    (k : Word → Int → Int → Result State) :
    (operandAt loc f s >>= fun d => doubleLength s.a s.r >>= fun v => divide v (sint d) s >>= k d v) = .error e := by
  rw [hd]
  exact Result.bind_bind_of_error h (k d)

/-- 66 and 67 stop together where there is no quotient. -/
theorem obey_division_of_error {e : Stop} (hd : operandAt loc f s.advance = .ok d)
    (h : quotientBy d s.advance = .error e) :
    obey f s (divideDouble loc f) = e.outcome ∧ obey f s (divideSingle loc f) = e.outcome :=
  ⟨obey_of_error (Result.bind_quotientBy_of_error hd h _), obey_of_error (Result.bind_quotientBy_of_error hd h _)⟩

/-- How many values have been drawn once a division has been made: one more where R126 leaves a choice (log 10). -/
def drawsAfter (v d : Int) (s : State) : Nat := if divisionOpen v d then s.draws + 1 else s.draws

/-- Counting the draw of a division changes the model's own count only. -/
theorem State.countDivision_eq (s : State) (v d : Int) :
    s.countDivision v d = { s with draws := drawsAfter v d s } := by
  unfold State.countDivision drawsAfter
  split <;> rfl

/-- 66 delivers quotient and remainder, and 67 the same quotient with R cleared (R126, R127). -/
theorem obey_division_of_quotient {q : Int} (hd : operandAt loc f s.advance = .ok d) (hr : s.r.getLsbD 19 = false)
    (hq : divide (doubleOf s.a s.r) (sint d) s.advance = .ok q) :
    obey f s (divideDouble loc f) = .next
      { s.passed f with
        r := word q, a := word (doubleOf s.a s.r - q * sint d),
        draws := drawsAfter (doubleOf s.a s.r) (sint d) s } ∧
    obey f s (divideSingle loc f) = .next
      { s.passed f with
        a := word q, r := 0,
        draws := drawsAfter (doubleOf s.a s.r) (sint d) s } := by
  have number : doubleLength s.advance.a s.advance.r = .ok (doubleOf s.a s.r) := doubleLength_of_clear _ hr
  have double := (divideDouble_ok_iff loc f s.advance _).2 ⟨d, _, q, hd, number, hq, rfl⟩
  have single := (divideSingle_ok_iff loc f s.advance _).2 ⟨d, _, q, hd, number, hq, rfl⟩
  rw [obey_of_ok double, obey_of_ok single, State.countDivision_eq, State.countDivision_eq]
  exact ⟨rfl, rfl⟩

end

/-- An exact division leaves no choice, so that nothing is drawn (R126). -/
theorem drawsAfter_of_exact (q d : Int) (s : State) : drawsAfter (q * d) d s = s.draws := by
  simp [drawsAfter, divisionOpen]

/-- Settles O46: whichever quotient is drawn meets the relation, and an exact division draws nothing. -/
theorem divisionMeetsItsRelation : Obligations.DivisionMeetsItsRelation := by
  intro f s d hd hr nonzero small
  have operand := operandAt_direct hd
  refine ⟨?_, fun q whole => ?_⟩
  · obtain ⟨remainder, low, high⟩ := drawQuotient_meets _ _ s.advance nonzero small
    exact ⟨_, _, _, (add_sub_cancel _ _).symm, remainder, low, high,
      obey_division_of_quotient operand hr ((divide_ok_iff ..).2 ⟨nonzero, small, rfl⟩)⟩
  · have number : doubleOf s.a s.r = q * sint d := whole
    have divides : divide (doubleOf s.a s.r) (sint d) s.advance = .ok q :=
      (divide_ok_iff ..).2 ⟨nonzero, small, by rw [number, drawQuotient_exact q _ _ nonzero]⟩
    have results := obey_division_of_quotient operand hr divides
    rw [number, drawsAfter_of_exact, sub_self] at results
    exact results

/-- Settles O47: the three reasons for there being no quotient. -/
theorem divisionOutsideItsDomainStops : Obligations.DivisionOutsideItsDomainStops := by
  intro f s d hd
  have operand := operandAt_direct hd
  refine ⟨fun malformed => ?_, fun clear zero => ?_, fun clear nonzero large => ?_⟩
  · exact obey_division_of_error operand (quotientBy_of_malformed d malformed)
  · exact obey_division_of_error operand ((quotientBy_of_clear d clear).trans (divide_of_zero _ _ zero))
  · exact obey_division_of_error operand ((quotientBy_of_clear d clear).trans (divide_of_overflow _ nonzero large))

end Sys2Proof.Machine
end

section
/-!
Group 7, the direct transfers (R128 to R131, R134, R138, R139): the device that the modified N names (O51), and a transfer with it
performed (O48), held (O49), or made with the PCR (O50).
-/

namespace Sys2Proof.Machine

/-! ## The device number -/

section
variable {f : Fields} {s : State}

/-- The devices are 0, 1, 2 and those the platform adds (R128). -/
theorem State.hasDevice_iff (s : State) (d : Device) :
    s.hasDevice d = true ↔ d.val ≤ 2 ∨ s.params.platform.get d = true := by
  simp [State.hasDevice]

/-- A number of the device highway is the device of that number, if there is one (R128). -/
theorem deviceNumber_of_device {d : Device} (h : d.val = (s.modifiedN f).toNat) :
    deviceNumber f s = if s.hasDevice d then .ok d else .error (.refused .unknownDevice) := by
  have fits : uint (s.modifiedN f) < 16 := h.symm.trans_lt d.isLt
  have same : (⟨uint (s.modifiedN f), fits⟩ : Device) = d := Fin.ext h.symm
  rw [deviceNumber, dif_pos fits, same]

theorem deviceNumber_of_known {d : Device} (h : d.val = (s.modifiedN f).toNat) (known : s.hasDevice d = true) :
    deviceNumber f s = .ok d :=
  (deviceNumber_of_device h).trans (if_pos known)

theorem deviceNumber_of_unknown {d : Device} (h : d.val = (s.modifiedN f).toNat) (unknown : s.hasDevice d = false) :
    deviceNumber f s = .error (.refused .unknownDevice) := by
  simp [deviceNumber_of_device h, unknown]

/-- A number of 16 or more does not fit the highway (R128). -/
theorem deviceNumber_of_large (h : 16 ≤ (s.modifiedN f).toNat) :
    deviceNumber f s = .error (.refused .deviceOutOfRange) :=
  dif_neg (not_lt.2 h)

/-- The device checks come first: where they stop, so do all three transfers (R143). -/
theorem exec_transfers_of_deviceNumber_error {e : Stop} (h : deviceNumber f s.advance = .error e) :
    exec (.inputAdd70 f) s = e.outcome ∧ exec (.inputRead73 f) s = e.outcome ∧ exec (.output77 f) s = e.outcome := by
  have input (use : Word → State → State) : inputWith use f s = e.outcome := by rw [inputWith, h]
  have output : outputA f s = e.outcome := by rw [outputA, h]
  exact ⟨input addInput, input readInput, output⟩

end

/-- Settles O51: below 16 the number is a device's, and the platform has that device or not. -/
theorem deviceNumberIsTheModifiedN : Obligations.DeviceNumberIsTheModifiedN := by
  intro f s
  refine ⟨fun small => ?_, fun large => ?_, fun d named => ⟨s.hasDevice_iff d, fun known => ?_, fun unknown => ?_⟩⟩
  · have ⟨d, named⟩ : ∃ d : Device, d.val = (s.advance.modifiedN f).toNat := ⟨⟨_, small.trans_lt (by decide)⟩, rfl⟩
    have known : s.advance.hasDevice d = true := (State.hasDevice_iff ..).2 (.inl (named ▸ small))
    exact ⟨d, named, deviceNumber_of_known named known⟩
  · exact exec_transfers_of_deviceNumber_error (deviceNumber_of_large large)
  · exact deviceNumber_of_known named known
  · exact exec_transfers_of_deviceNumber_error (deviceNumber_of_unknown named unknown)

/-! ## What a device gives and takes -/

section
variable {s : State} {d : Device}

/-- A ready device gives its oldest datum (R129). -/
theorem State.input_of_ready {w : Word} {rest : List Word} (other : d ≠ pcrDevice) (ready : s.busy.get d = false)
    (datum : s.inputs.get d = w :: rest) :
    s.input d = some (deviceWord d w, { s with inputs := s.inputs.set d.val rest d.isLt }) := by
  simp [State.input, other, ready, datum]

/-- A device that is busy, or that has no datum, gives nothing now (R130). -/
theorem State.input_of_notReady (other : d ≠ pcrDevice) (h : s.busy.get d = true ∨ s.inputs.get d = []) :
    s.input d = none := by
  rw [State.input, if_neg other]
  split
  · rfl
  · next ready => rw [h.resolve_left ready]

/-- A ready device takes A (R129, R138). -/
theorem State.output_of_ready (other : d ≠ pcrDevice) (ready : s.busy.get d = false) :
    s.output d = some { s with outputs := s.outputs ++ [(d, s.a)] } := by
  simp [State.output, other, ready]

/-- A busy device takes nothing now (R130). -/
theorem State.output_of_busy (other : d ≠ pcrDevice) (busy : s.busy.get d = true) : s.output d = none := by
  simp [State.output, other, busy]

theorem State.input_pcr (s : State) : s.input pcrDevice = some (Config.pcrRead s.pcr, s) := if_pos rfl

theorem State.output_pcr (s : State) : s.output pcrDevice = some { s with pcr := Config.pcrWrite s.pcr s.a } := if_pos rfl

/-- The tape reader's datum is its low five bits (D35). -/
theorem deviceWord_tapeReader (w : Word) : (deviceWord tapeReader w).toNat = w.toNat % 32 := by
  rw [deviceWord, if_pos rfl, BitVec.toNat_and]
  exact Nat.and_two_pow_sub_one_eq_mod _ 5

theorem deviceWord_of_ne_tapeReader (w : Word) (h : d ≠ tapeReader) : deviceWord d w = w := if_neg h

end

/-! ## The transfers -/

section
variable {f : Fields} {s u : State} {d : Device} {t : Word}

/-- 70 adds what the device gives, and OV is drawn; LOCK, which is set last, has no part in it (R131). -/
theorem exec_inputAdd70_of_input (hd : deviceNumber f s.advance = .ok d) (h : s.advance.input d = some (t, u)) :
    exec (.inputAdd70 f) s = .next (addInput t { u with lock := f.l }) := by
  have performed := (inputWith_next_iff addInput f s _).2 ⟨d, hd, .inr ⟨t, u, h, rfl⟩⟩
  rwa [addInput, OvRule.drawOv.lock] at performed

/-- 73 loads what the device gives (R134). -/
theorem exec_inputRead73_of_input (hd : deviceNumber f s.advance = .ok d) (h : s.advance.input d = some (t, u)) :
    exec (.inputRead73 f) s = .next { u with a := t, lock := f.l } :=
  (inputWith_next_iff readInput f s _).2 ⟨d, hd, .inr ⟨t, u, h, rfl⟩⟩

/-- 70 and 73 hold while the device gives nothing (R130). -/
theorem exec_inputs_of_hold (hd : deviceNumber f s.advance = .ok d) (h : s.advance.input d = none) :
    exec (.inputAdd70 f) s = .next s ∧ exec (.inputRead73 f) s = .next s := by
  have held (use : Word → State → State) : inputWith use f s = .next s :=
    (inputWith_next_iff use f s s).2 ⟨d, hd, .inl ⟨h, rfl⟩⟩
  exact ⟨held addInput, held readInput⟩

/-- 77 leaves what the device makes of A (R138). -/
theorem exec_output77_of_output (hd : deviceNumber f s.advance = .ok d) (h : s.advance.output d = some u) :
    exec (.output77 f) s = .next { u with lock := f.l } :=
  (outputA_next_iff f s _).2 ⟨d, hd, .inr ⟨u, h, rfl⟩⟩

/-- 77 holds while the device takes nothing (R130). -/
theorem exec_output77_of_hold (hd : deviceNumber f s.advance = .ok d) (h : s.advance.output d = none) :
    exec (.output77 f) s = .next s :=
  (outputA_next_iff f s s).2 ⟨d, hd, .inl ⟨h, rfl⟩⟩

end

/-- Settles O48: the device, not the PCR and not busy, takes A, and gives a datum if it has one. -/
theorem directTransfersMoveOneWord : Obligations.DirectTransfersMoveOneWord := by
  intro f s d hd other ready
  refine ⟨exec_output77_of_output hd (State.output_of_ready other ready), fun w rest datum => ?_⟩
  have given := State.input_of_ready (s := s.advance) other ready datum
  refine ⟨exec_inputAdd70_of_input hd given, exec_inputRead73_of_input hd given, ?_, deviceWord_of_ne_tapeReader w⟩
  rintro rfl
  exact deviceWord_tapeReader w

/-- Settles O49: a busy device takes nothing, and gives nothing either. -/
theorem deviceNotReadyHolds : Obligations.DeviceNotReadyHolds := by
  intro f s d hd other
  refine ⟨fun notReady => ?_, fun busy => ?_⟩
  · exact exec_inputs_of_hold hd (State.input_of_notReady other notReady)
  · exact exec_output77_of_hold hd (State.output_of_busy other busy)

/-- Settles O50: the PCR gives and takes without a question of Busy or of data. -/
theorem deviceTwoIsTheProgramControlRegister : Obligations.DeviceTwoIsTheProgramControlRegister := by
  intro f s hd
  refine ⟨?_, ?_, ?_⟩
  · exact exec_inputAdd70_of_input hd s.advance.input_pcr
  · exact (exec_inputRead73_of_input hd s.advance.input_pcr :)
  · exact exec_output77_of_output hd s.advance.output_pcr

end Sys2Proof.Machine
end

section
/-!
Group 7, the rest (R132, R133, R135 to R137): the dynamic stops (O52), 74 (O53), and the programmed Program Break (O54).
-/

namespace Sys2Proof.Machine

/-- Settles O53: the rule of 74 asks nothing of the fields or the state. -/
theorem function74HasNoMeaning : Obligations.Function74HasNoMeaning := fun _ _ => rfl

/-! ## The dynamic stops -/

/-- 71, 72 and 75 are one rule (R132, R133, R136, R142). -/
theorem exec_of_dynamicStop {i : Instr} {f : Fields} (h : i = .stop71 f ∨ i = .stop72 f ∨ i = .stop75 f) (s : State) :
    exec i s = .next { s with lock := f.l } := by
  obtain rfl | rfl | rfl := h <;> rfl

/-- Settles O52: S stays at the stop, so that each step after the first, which sets LOCK, finds what it leaves. -/
theorem dynamicStopRepeatsForEver : Obligations.DynamicStopRepeatsForEver := by
  refine ⟨fun f s => ⟨rfl, rfl, rfl⟩, fun s f w k noEvent notIdle best holds stop => ?_⟩
  have stops : ∀ lock, Sys2Proof.core.step { s with lock := lock } = .next { s with lock := f.l } := by
    intro lock
    have quiet : State.Quiet { s with lock := lock } := ⟨noEvent, notIdle, State.breakDue_of_best best⟩
    exact (quiet.step holds).trans (exec_of_dynamicStop stop _)
  exact (run_succ_of_step (stops s.lock) k).trans (run_of_step_self (stops f.l) k)

/-! ## The programmed Program Break -/

/-- The best of some levels is runnable (R148). -/
theorem State.runnable_of_bestAmong {s : State} {l : Level} {levels : List Level} (h : s.bestAmong levels = some l) :
    s.runnable l = true := by
  induction levels generalizing l with
  | nil => cases h
  | cons m rest ih =>
    rw [State.bestAmong] at h
    split at h
    · split at h
      · next runs => cases h; exact runs
      · cases h
    · next n best =>
      split at h
      · next both => cases h; exact (Bool.and_eq_true_iff.1 both).1
      · cases h; exact ih best

/-- A level whose stimulus has been cleared is not runnable (R146). -/
theorem State.clearOwnStimulus_runnable (s : State) : s.clearOwnStimulus.runnable s.cur = false := by
  simp [State.runnable, vector_get_set]

/-- The level whose stimulus has been cleared is not the best one. -/
theorem State.best_clearOwnStimulus_ne {s : State} {l : Level} (h : s.clearOwnStimulus.best = some l) : l ≠ s.cur := by
  rintro rfl
  exact absurd ((State.runnable_of_bestAmong h).symm.trans s.clearOwnStimulus_runnable) nofun

section
variable {f : Fields} {s : State}

/-- 76 to a place in range breaks from there, its own stimulus cleared (R137, R151). -/
theorem exec_programBreak76_of_inRange (inside : s.inRange (directPlace f s.advance) = true) :
    exec (.programBreak76 f) s = .next
      { ({ s with seq := directPlace f s.advance } : State).clearOwnStimulus.programBreak with lock := f.l } :=
  obey_of_ok ((breakTo_ok_iff f s.advance _).2 ⟨by simpa using inside, rfl⟩)

/-- 76 to a place out of range writes nothing (R137). -/
theorem breakTo_of_outside (h : s.inRange (directPlace f s) = false) :
    breakTo f s = .error (.fault .addressOutOfRange) :=
  Result.bind_of_error (State.jump_of_outside h) _

end

/-- Settles O54: S has no part in which level is the best, and the level left, its stimulus cleared, is not; so the level entered
keeps the re-entry address it had. -/
theorem function76BreaksToTheBestLevel : Obligations.Function76BreaksToTheBestLevel := by
  intro f s
  refine ⟨fun inside => ?_, fun outside => ?_⟩
  · rw [exec_programBreak76_of_inRange inside]
    have sameBest : ({ s with seq := directPlace f s.advance } : State).clearOwnStimulus.best = s.clearOwnStimulus.best := rfl
    refine ⟨fun l best => ?_, fun noLevel => ?_⟩
    · have other : l ≠ s.cur := State.best_clearOwnStimulus_ne best
      rw [State.programBreak_of_some (sameBest.trans best) other]
      rfl
    · rw [State.programBreak_of_none (sameBest.trans noLevel)]
      rfl
  · exact obey_of_error (breakTo_of_outside (by simpa using outside))

end Sys2Proof.Machine
end

section
/-!
The programme levels at the boundary: the order of the levels and the best of them (O58), and what LOCK = 1 holds off (O56).
-/

namespace Sys2Proof.Machine

/-! ## The order of the levels -/

/-- A level outranks another by a higher rank, and by its number where the ranks are equal (R148; log 6). -/
theorem outranks_iff {p : Params} {l m : Level} :
    outranks p l m = true ↔ p.rank.get m < p.rank.get l ∨ p.rank.get m = p.rank.get l ∧ m.val < l.val := by
  simp [outranks]

theorem outranks_irrefl (p : Params) (l : Level) : outranks p l l = false := by
  simp [outranks]

theorem outranks_trans {p : Params} {l m n : Level} (h : outranks p l m = true) (k : outranks p m n = true) :
    outranks p l n = true := by
  rw [outranks_iff] at *
  omega

theorem outranks_total {p : Params} {l m : Level} (h : l ≠ m) : outranks p l m = true ∨ outranks p m l = true := by
  have numbers : l.val ≠ m.val := Fin.val_ne_of_ne h
  simp only [outranks_iff]
  omega

/-! ## The best of some levels -/

section
variable {s : State} {k l m : Level} {levels : List Level}

/-- The best of a list is its head, which then outranks the best of the rest, or it is the best of the rest, which a runnable
head then does not outrank. -/
theorem State.bestAmong_cons_some (h : s.bestAmong (k :: levels) = some l) :
    (l = k ∧ ∀ n, s.bestAmong levels = some n → outranks s.params k n = true) ∨
      (s.bestAmong levels = some l ∧ (s.runnable k = true → outranks s.params k l = false)) := by
  rw [State.bestAmong] at h
  cases best : s.bestAmong levels with
  | none =>
    simp only [best, Option.ite_none_right_eq_some, Option.some.injEq] at h
    obtain ⟨-, rfl⟩ := h
    exact .inl ⟨rfl, nofun⟩
  | some n =>
    simp only [best] at h
    split at h
    · next both =>
      cases h
      refine .inl ⟨rfl, fun n' e => ?_⟩
      cases e
      exact (Bool.and_eq_true_iff.1 both).2
    · next notBoth =>
      cases h
      exact .inr ⟨rfl, fun runs => by simpa [runs] using notBoth⟩

/-- Among some levels there is a best one as soon as one of them is runnable (R148). -/
theorem State.bestAmong_ne_none (mem : m ∈ levels) (runs : s.runnable m = true) : s.bestAmong levels ≠ none := by
  induction levels with
  | nil => cases mem
  | cons k rest ih =>
    rw [State.bestAmong]
    cases best : s.bestAmong rest with
    | none =>
      obtain rfl | later := List.mem_cons.1 mem
      · simp [runs]
      · exact absurd best (ih later)
    | some n =>
      dsimp only
      split <;> nofun

/-- The best of some levels outranks every other one of them that is runnable (R148). -/
theorem State.bestAmong_outranks (h : s.bestAmong levels = some l) (mem : m ∈ levels) (runs : s.runnable m = true)
    (other : m ≠ l) : outranks s.params l m = true := by
  induction levels generalizing l with
  | nil => cases mem
  | cons k rest ih =>
    obtain ⟨rfl, above⟩ | ⟨best, notAbove⟩ := State.bestAmong_cons_some h <;> obtain rfl | later := List.mem_cons.1 mem
    · exact absurd rfl other
    · obtain ⟨n, best⟩ := Option.ne_none_iff_exists'.1 (State.bestAmong_ne_none later runs)
      by_cases e : m = n
      · exact e ▸ above n best
      · exact outranks_trans (above n best) (ih best later e)
    · exact (outranks_total other).resolve_left (by simp [notAbove runs])
    · exact ih best later other

end

/-- The list the best level is taken from leaves no level out (NLEV = 7). -/
theorem mem_allLevels : ∀ m : Level, m ∈ ([0, 1, 2, 3, 4, 5, 6] : List Level) := by
  decide

/-- A level is runnable with its stimulus present, its switch on enable and the PCR allowing it (R146). -/
theorem State.runnable_iff {s : State} {l : Level} :
    s.runnable l = true ↔ s.stim.get l = true ∧ s.switch.get l = true ∧ pcrAllows s.pcr l = true := by
  simp [State.runnable, and_assoc]

/-- Settles O58: what holds of the best of any list of levels, for the list of all seven; and the order of the levels, which
compares ranks and then numbers. -/
theorem bestLevelOutranksTheOthers : Obligations.BestLevelOutranksTheOthers := by
  refine ⟨fun s => ⟨fun l best => ⟨?_, fun m runs other => ?_⟩, fun noBest m => ?_⟩,
    fun p l m n => ⟨outranks_irrefl p l, outranks_trans, outranks_total⟩⟩
  · exact State.runnable_iff.1 (State.runnable_of_bestAmong best)
  · exact State.bestAmong_outranks best (mem_allLevels m) runs other
  · exact Bool.eq_false_iff.2 fun runs => State.bestAmong_ne_none (mem_allLevels m) runs noBest

/-! ## LOCK = 1 -/

section
variable {s : State} {l : Level}

/-- With LOCK = 1 a processor that does not idle takes no break, so that step 1 is what the environment does (R145, R149). -/
theorem State.boundary_of_locked (idle : s.idle = false) (lock : s.lock = true) : s.boundary = s.environment := by
  simp [State.boundary, State.settleLevel, State.breakDue, idle, lock]

/-- No event clears a stimulus (R147). -/
theorem State.happen_keeps_stim (e : EnvEvent) (h : s.stim.get l = true) : (s.happen e).stim.get l = true := by
  cases e with
  | demand m | pushButton m =>
    change (s.stimulate m).stim.get l = true
    rw [State.stimulate_stim, vector_get_set]
    split
    · rfl
    · exact h
  | transfer writes =>
    refine State.transfer_ind (P := fun u => u.stim.get l = true) writes h fun u p hu => ?_
    obtain ⟨-, word⟩ | ⟨-, word⟩ := u.transferWord_cases p <;> simpa [word] using hu
  | setSwitch | deliver | setBusy | pcrChange => exact h

/-- A demand or a push-button makes its level's stimulus present, whatever the switch is (R144; D22, log 35). -/
theorem State.happen_stimulates {e : EnvEvent} (he : e = .demand l ∨ e = .pushButton l) :
    (s.happen e).stim.get l = true := by
  have stimulated : s.happen e = s.stimulate l := by obtain rfl | rfl := he <;> rfl
  rw [stimulated, State.stimulate_stim, vector_get_set, if_pos rfl]

theorem State.environment_keeps_stim (h : s.stim.get l = true) : s.environment.stim.get l = true :=
  s.environment_ind (P := fun u => u.stim.get l = true) h fun _ _ e _ _ hu => State.happen_keeps_stim e hu

/-- A stimulus that arrives at a boundary is present after it: the events that follow leave it there. -/
theorem State.environment_stimulates {events : List EnvEvent} {later : List (List EnvEvent)} {e : EnvEvent}
    (henv : s.env = events :: later) (mem : e ∈ events) (he : e = .demand l ∨ e = .pushButton l) :
    s.environment.stim.get l = true := by
  obtain ⟨before, after, rfl⟩ := List.append_of_mem mem
  rw [State.environment, henv]
  simp only [List.foldl_append, List.foldl_cons]
  exact List.foldlRecOn (motive := fun u : State => u.stim.get l = true) after State.happen
    (State.happen_stimulates he) fun u hu e' _ => State.happen_keeps_stim e' hu

end

/-- Settles O56: the boundary is then the environment's doing alone, which reaches neither the level nor S nor the re-entry
addresses and clears no stimulus. -/
theorem lockHoldsOffTheBreak : Obligations.LockHoldsOffTheBreak := by
  intro s idle lock
  rw [State.boundary_of_locked idle lock]
  refine ⟨s.environment_cur, s.environment_seq, s.environment_reentry, s.environment_idle.trans idle,
    fun l => State.environment_keeps_stim, fun l events later henv arrives => ?_⟩
  obtain mem | mem := arrives
  · exact State.environment_stimulates henv mem (.inl rfl)
  · exact State.environment_stimulates henv mem (.inr rfl)

end Sys2Proof.Machine
end
